-- ==== Sys2Proof/Word.lean ====
section
/-! DEFINITION. The widths of the SZ4816's words. -/

namespace Sys2Proof

/-- One byte of a record, a cell or a transfer. -/
abbrev Byte := BitVec 8

/-- A 32-bit register or record field. -/
abbrev Word := BitVec 32

/-- A 64-bit host memory address, control word or register pair. -/
abbrev Long := BitVec 64

/-- A program number, 0..15. -/
abbrev Program := Fin 16

end Sys2Proof
end

