-- ==== Sys2Proof/Syntax.lean ====
section
/-! DEFINITION. The commands of the SZ4816: one constructor for each row of spec/opcode_table.json. -/

namespace Sys2Proof

/-- A key slot's parity (R93). -/
inductive Parity where
  | even
  | odd
  deriving DecidableEq, Repr

/-- A recoding engine (R68). -/
inductive Engine where
  | re0
  | re1
  deriving DecidableEq, Repr

/-- The two events of a page's pattern test (R125). The table's one row names the second; the first, at which the current page
becomes the page under test, is the instant R124 and R127 tell apart from those with no page under test (log 38). -/
inductive PageStep where
  /-- the current page is removed from where it stands and becomes the page under test -/
  | begins
  /-- the pattern test of a page ends with a verdict -/
  | ends (good : Bool)
  deriving DecidableEq, Repr

/-- What falls together with an expiry of the interval timer, where the manual leaves the order open. -/
structure BoundaryEvent where
  /-- the store takes the sending list's pages before those the recoder returns for LATE jobs (R123, log 12) -/
  lineFirst : Bool
  /-- the allocation-complete event arrives with the boundary and is taken first (R57, R89, log 39) -/
  allocationFirst : Bool
  deriving DecidableEq, Repr

/-- What the cell store's check finds at a read (R121). -/
inductive ReadCheck where
  /-- no erroneous bit -/
  | clean
  /-- one erroneous bit, in the bytes or in the check -/
  | corrected
  /-- more than one erroneous bit -/
  | uncorrectable
  deriving DecidableEq, Repr

/-- The registers that have no command of their own (R185): STATUS and KEY_CHECK ignore a write, DIRECTORY stores it. -/
inductive PlainRegister where
  | status
  | directoryLow
  | directoryHigh
  | keyCheck
  deriving DecidableEq, Repr

/-- The commands and events of the block. -/
inductive Instr where
  /-- START written to CONTROL (R173) -/
  | start
  /-- the end of START's table reads and checks (R174) -/
  | startComplete
  /-- STOP written to CONTROL (R176) -/
  | stop
  /-- HALT written to CONTROL (R177) -/
  | halt
  /-- the end of HALTING (R177) -/
  | haltComplete
  /-- LOAD_FILTERS written to CONTROL (R137) -/
  | loadFilters
  /-- the end of a filter table load (R137) -/
  | loadEnd
  /-- RELOAD_REGIONS written to CONTROL (R163) -/
  | reloadRegions
  /-- the end of a region reload (R163) -/
  | reloadEnd
  /-- TEST_PAGES written to CONTROL with its first page and count (R124, R185) -/
  | testPages (first count : BitVec 12)
  /-- the pattern test of a page: its beginning, or its end with the verdict (R125) -/
  | pageTested (event : PageStep)
  /-- the end of a page test (R126) -/
  | testEnd
  /-- PROBE written to CONTROL (R164) -/
  | probe
  /-- the end of a PROBE (R164) -/
  | probeEnd
  /-- RESET written to CONTROL (R179) -/
  | reset
  /-- a CONTROL write whose code names no command (R172) -/
  | badCommand (code : Byte)
  /-- power-on reset (R179) -/
  | powerOnReset
  /-- bus function reset (R179) -/
  | busFunctionReset
  /-- KEY_SELECT written with operation NONE (R96) -/
  | keySelectNone (program : Program) (parity : Parity)
  /-- KEY_SELECT written with operation LOAD (R96) -/
  | load (program : Program) (parity : Parity)
  /-- KEY_SELECT written with operation ERASE (R97) -/
  | erase (program : Program) (parity : Parity)
  /-- KEY_SELECT written with an unknown operation code (R96) -/
  | badOperation (program : Program) (parity : Parity) (code : BitVec 3)
  /-- KEY_DATA written with one half of a control word (R98) -/
  | keyData (half : Word)
  /-- the install in flight ends (R99) -/
  | installEnd
  /-- KEY_CHECK is read (R101) -/
  | keyCheck
  /-- the check capture in flight ends (R102) -/
  | captureEnd
  /-- EVENTS is written (R182) -/
  | events (value : Word)
  /-- EVENT_ENABLE is written (R183) -/
  | eventEnable (value : Word)
  /-- a register without behaviour of its own is written (R185) -/
  | registerWrite (register : PlainRegister) (value : Word)
  /-- the interval timer expires (R175), with what falls together with it -/
  | boundary (event : BoundaryEvent)
  /-- the intake-complete event (R1) -/
  | intakeComplete
  /-- the allocation-complete event (R56) -/
  | allocationComplete
  /-- pass 1 or pass 2 of an engine ends (R81) -/
  | passEnd (engine : Engine)
  /-- the floor pass of an engine ends (R82) -/
  | floorPassEnd (engine : Engine)
  /-- a build ends in its job's completion (R85) -/
  | jobCompletion (engine : Engine)
  /-- the program controller takes a program's finish report (R23) -/
  | finishReport (program : Program)
  /-- the program controller takes a program's STRICT content fault report (R88) -/
  | faultReport (program : Program)
  /-- the allocator takes a program's completion report (R60) -/
  | completionReport (program : Program)
  /-- the side build links its message (R141) -/
  | sideLink
  /-- the line partner requests a cell (R146); `check` is what the store finds if the answer is a stored cell (R121) -/
  | cellRequest (check : ReadCheck)
  /-- the write of the fault record at the head of the queue ends (R166) -/
  | faultRecordWriteEnd
  /-- every bus transaction of the access with this tag completes; a read delivers `data` (R161) -/
  | accessCompletion (tag : Nat) (data : List Byte)
  /-- a bus transaction of the access with this tag returns an error (R161) -/
  | busError (tag : Nat)
  /-- a bus transaction of the access with this tag has no completion within 2 ms (R161) -/
  | completionTimeout (tag : Nat)
  deriving DecidableEq, Repr

end Sys2Proof
end

