-- ==== Sys2Proof/Decode.lean ====
section
/-! DEFINITION. The command a word spells. The table's rows give no bits (R184 to R186 give the register window's
fields), so `decodeTableWord` reads none; `decodeRegisterWrite` and `decodeRegisterRead` give the command a register
access stands for. -/

namespace Sys2Proof

/-- No row of spec/opcode_table.json gives bits: a word spells no command. -/
def decodeTableWord (_nbits _w : Nat) : Option Instr := none

/-- R185: a write to CONTROL. Bits 7..0 are the code, bits 31..8 the operand, which TEST_PAGES alone reads. -/
def decodeControl (value : Word) : Instr :=
  match (value.extractLsb' 0 8).toNat with
  | 1 => .start
  | 2 => .stop
  | 3 => .halt
  | 4 => .loadFilters
  | 5 => .reloadRegions
  | 6 => .testPages (value.extractLsb' 8 12) (value.extractLsb' 20 12)
  | 7 => .probe
  | 8 => .reset
  | _ => .badCommand (value.extractLsb' 0 8)

/-- R185: a write to KEY_SELECT. Bits 3..0 program, bit 4 parity, bits 7..5 operation. -/
def decodeKeySelect (value : Word) : Instr :=
  let program : Program := (value.extractLsb' 0 4).toFin
  let parity : Parity := if value.getLsbD 4 then .odd else .even
  match (value.extractLsb' 5 3).toNat with
  | 0 => .keySelectNone program parity
  | 1 => .load program parity
  | 2 => .erase program parity
  | _ => .badOperation program parity (value.extractLsb' 5 3)

/-- 11.4: the command a write at an offset of the register window is; none where the window has no register. -/
def decodeRegisterWrite (offset : Nat) (value : Word) : Option Instr :=
  match offset with
  | 0x00 => some (decodeControl value)
  | 0x04 => some (.registerWrite .status value)
  | 0x08 => some (.registerWrite .directoryLow value)
  | 0x0C => some (.registerWrite .directoryHigh value)
  | 0x10 => some (.events value)
  | 0x14 => some (.eventEnable value)
  | 0x18 => some (decodeKeySelect value)
  | 0x1C => some (.keyData value)
  | 0x20 => some (.registerWrite .keyCheck value)
  | _ => none

/-- 11.4: the command a read at an offset is; the reads of the other registers change nothing and are no row. -/
def decodeRegisterRead (offset : Nat) : Option Instr :=
  match offset with
  | 0x20 => some .keyCheck
  | _ => none

/-- R185: the bits of a KEY_SELECT write. -/
def keySelectWrite (program : Program) (parity : Parity) (operation : BitVec 3) : Word :=
  (0 : BitVec 24) ++ operation ++ BitVec.ofBool (parity = .odd) ++ BitVec.ofFin (w := 4) program

/-- 11.4: the register window access that makes a command: the offset it is written at and the word written; none for a
command that is no register write. -/
def Instr.registerAccess : Instr → Option (Nat × Word)
  | .start => some (0x00, 1)
  | .stop => some (0x00, 2)
  | .halt => some (0x00, 3)
  | .loadFilters => some (0x00, 4)
  | .reloadRegions => some (0x00, 5)
  | .testPages first count => some (0x00, count ++ first ++ (6 : Byte))
  | .probe => some (0x00, 7)
  | .reset => some (0x00, 8)
  | .badCommand code => some (0x00, code.setWidth 32)
  | .registerWrite .status value => some (0x04, value)
  | .registerWrite .directoryLow value => some (0x08, value)
  | .registerWrite .directoryHigh value => some (0x0C, value)
  | .events value => some (0x10, value)
  | .eventEnable value => some (0x14, value)
  | .keySelectNone program parity => some (0x18, keySelectWrite program parity 0)
  | .load program parity => some (0x18, keySelectWrite program parity 1)
  | .erase program parity => some (0x18, keySelectWrite program parity 2)
  | .badOperation program parity code => some (0x18, keySelectWrite program parity code)
  | .keyData half => some (0x1C, half)
  | .registerWrite .keyCheck value => some (0x20, value)
  | .keyCheck => none
  | .startComplete | .haltComplete | .loadEnd | .reloadEnd | .pageTested _ | .testEnd | .probeEnd => none
  | .powerOnReset | .busFunctionReset | .installEnd | .captureEnd => none
  | .boundary _ | .intakeComplete | .allocationComplete => none
  | .passEnd _ | .floorPassEnd _ | .jobCompletion _ => none
  | .finishReport _ | .faultReport _ | .completionReport _ => none
  | .sideLink | .cellRequest _ | .faultRecordWriteEnd => none
  | .accessCompletion _ _ | .busError _ | .completionTimeout _ => none

end Sys2Proof
end

