-- ==== Sys2Proof/Machine/Bytes.lean ====
section
/-! DEFINITION. Byte order and rounding: the helpers every record, header and quotient of the manual is formed with. -/

namespace Sys2Proof.Machine

/-- The quotient rounded up (00_scope.md, Arithmetic). -/
def ceilDiv (a b : Nat) : Nat := (a + b - 1) / b

/-- Byte `i` of a transfer; a byte past its end reads 0 (log 1). -/
def byteAt (bs : List Byte) (i : Nat) : Byte := bs.getD i 0

/-- The little-endian value of the `n` bytes from offset `off` (R184). -/
def leNat (bs : List Byte) (off : Nat) : Nat → Nat
  | 0 => 0
  | n + 1 => (byteAt bs off).toNat + 256 * leNat bs (off + 1) n

/-- The `n` bytes of a value, least significant first (R184). -/
def leBytes : Nat → Nat → List Byte
  | 0, _ => []
  | n + 1, v => BitVec.ofNat 8 v :: leBytes n (v / 256)

/-- The `n` bytes of a value, most significant first (11.3). -/
def beBytes (n v : Nat) : List Byte := (leBytes n v).reverse

/-- The big-endian value of a list of bytes (R110). -/
def beNat (bs : List Byte) : Nat := bs.foldl (fun acc b => 256 * acc + b.toNat) 0

/-- `n` bytes of 0x00. -/
def zeros (n : Nat) : List Byte := List.replicate n 0

/-- Exactly `n` bytes of a transfer, with 0 for those not delivered (log 1). -/
def exactly (n : Nat) (bs : List Byte) : List Byte := bs.take n ++ zeros (n - bs.length)

/-- A flag field is read from its bit 0 (R184). -/
def flagAt (bs : List Byte) (i : Nat) : Bool := (byteAt bs i).getLsbD 0

/-- A Bool as the number 1 or 0. -/
def boolNat (b : Bool) : Nat := if b then 1 else 0

end Sys2Proof.Machine
end

