-- ==== Sys2Proof/Config.lean ====
section
/-! DEFINITION. What the SZ4816 fixes (00_scope.md, Principal figures) and the values its manual leaves free. -/

namespace Sys2Proof.Config

/-- Pages of the cell store (R116). -/
def pageCount : Nat := 2048

/-- Cell places of one page (R116). -/
def placesPerPage : Nat := 20

/-- Payload bytes of a cell (R113). -/
def payloadBytes : Nat := 192

/-- Bytes of a cell (R113). -/
def cellBytes : Nat := 200

/-- Bytes of one engine's scratch buffer (R68). -/
def scratchBytes : Nat := 2097152

/-- Places of the side queue (R139). -/
def sideQueueLimit : Nat := 32

/-- Cells of debt a program may owe (R63). -/
def debtLimit : Nat := 8

/-- The cell permutation (R109): for each control word a one-to-one map of the 64-bit values onto themselves.
Its rounds are contained in the key unit and stated nowhere. FREE VALUE (log 6, safe). -/
opaque cellPermutation : Long → Equiv.Perm Long

/-- The address a LOAD_FILTERS reads when no START has given the device a directory since the last reset (R137, R160):
the manual names none. FREE VALUE, fresh at each use (log 8, safe). -/
opaque filterTableAddress : Nat → Long

end Sys2Proof.Config
end

