-- ==== Sys2Proof/Machine/State.lean ====
section
/-! DEFINITION. The state of the SZ4816, block by block as 00_scope.md's block diagram divides it, and its value after
power-on reset. Every field is plain data. -/

namespace Sys2Proof.Machine

/-- One value for each of the 16 programs. -/
abbrev PerProgram (α : Type) := Vector α 16

/-- The same value for every program. -/
abbrev PerProgram.fill {α : Type} (x : α) : PerProgram α := Vector.replicate 16 x

/-! ### Names the chapters use -/

/-- Device states (R171). -/
inductive DeviceState where
  | idle | starting | running | draining | halting | testing
  deriving DecidableEq, Repr

/-- The commands of CONTROL (R172). -/
inductive CommandName where
  | start | stop | halt | loadFilters | reloadRegions | testPages | probe | reset
  deriving DecidableEq, Repr

/-- Command results (R172, R186). -/
inductive CmdResult where
  | none | ok | badCommand | wrongState | badConfig | directoryAccess | tableInvalid | tableAccess | interrupted
  | badOperand | noTable
  deriving DecidableEq, Repr

/-- Program states (1.2). -/
inductive ProgramState where
  | off | priming | running | draining | held
  deriving DecidableEq, Repr

/-- Desired modes (R2). -/
inductive DesiredMode where
  | off | run | abort
  deriving DecidableEq, Repr

/-- Picture kinds of the input (R74). -/
inductive Kind where
  | key | pred | bi
  deriving DecidableEq, Repr

/-- Outcome codes (R22, 11.2). -/
inductive Outcome where
  | ok | substituted | discardedOverrun | bufferHold | late | malformed | keyMissing | storeFull | faultTolerated | abandoned
  deriving DecidableEq, Repr

/-- Dispositions of side messages (R134, 11.2). -/
inductive Disposition where
  | none | carried | carriedCue | droppedAddress | droppedFilter | droppedLoading | droppedQueueFull | droppedNoCapacity
  deriving DecidableEq, Repr

/-- Start-refused codes (R4). -/
inductive StartRefusal where
  | none | entryUnreadable | accessKey | chainAddress | depth | bufferSize | decodeDelay | scrambleMode | faultMode | faultArea
  deriving DecidableEq, Repr

/-- Causes of a fault record (R167). -/
inductive FaultCause where
  | recordRead | linkInvalid | recordWrite | sliceTable | sliceData
  deriving DecidableEq, Repr

/-! ### The memory link -/

/-- Rights of a region (R158). -/
inductive Rights where
  | none | read | readWrite
  deriving DecidableEq, Repr

/-- Kinds of access (9.2). -/
inductive AccessKind where
  | read | write
  deriving DecidableEq, Repr

/-- The results of an access that does not succeed (R160, R161). -/
inductive AccessResult where
  | noRegion | keyMismatch | rights | bus
  deriving DecidableEq, Repr

/-- One entry of the region table (R158); a length of 0 marks it invalid. -/
structure Region where
  base : Long
  length : Long
  rights : Rights
  key : Byte
  deriving DecidableEq, Repr

/-- The work an access belongs to; each has at most one access in flight (log 1). -/
inductive Agent where
  | start | filterLoad | regionReload | probe | pageTest | intake | halt | status
  | finish (program : Program)
  | engine (engine : Engine)
  | side | report | faultRecord
  deriving DecidableEq, Repr

/-- An issued access that has not ended (9.2, R161). `key` is none for an unchecked access (R159); `region` is the index
the check found; `data` holds the bytes of a write. -/
structure Access where
  tag : Nat
  agent : Agent
  kind : AccessKind
  addr : Long
  length : Nat
  key : Option Byte
  region : Byte
  data : List Byte
  deriving DecidableEq, Repr

/-- What the requester learns of an access that did not succeed (R160, R161). -/
structure Failure where
  result : AccessResult
  region : Byte
  kind : AccessKind
  addr : Long
  length : Nat
  deriving DecidableEq, Repr

/-- How an access ends. -/
inductive Reply where
  | done (data : List Byte)
  | failed (f : Failure)
  deriving DecidableEq, Repr

/-- The memory link (R158, R161). -/
structure Link where
  regions : Option (List Region)
  accesses : List Access
  nextTag : Nat
  deriving DecidableEq, Repr

/-! ### The control unit and the timer -/

/-- The directory settings START keeps (R42, R67, R173); `directory` is the address latched for the run. -/
structure Settings where
  directory : Long
  programTable : Long
  codeTable : Long
  filterTable : Long
  regionTable : Long
  reportBase : Long
  period : Nat
  cpi : Nat
  sMax : Nat
  kfKey : Nat
  kfPred : Nat
  kfBi : Nat
  deadZone : Nat
  reportSlots : Nat
  firstProgram : Program
  lastProgram : Program
  deriving DecidableEq, Repr

/-- The table reads of START (R173, steps 2 and 4 to 6). -/
inductive StartStep where
  | directory | regions | codes | filters
  deriving DecidableEq, Repr

/-- A START in progress: reading, or ended with a result that START_COMPLETE gives (R173). -/
inductive StartWork where
  | reading (step : StartStep) (directory : Long)
  | ended (result : CmdResult)
  deriving DecidableEq, Repr

/-- A table read in progress, done or failed (R137, R163). -/
inductive TableRead where
  | reading
  | read (data : List Byte)
  | failed
  deriving DecidableEq, Repr

/-- A PROBE in flight (R164): reading its slot, writing its answer, or ended. -/
inductive ProbeWork where
  | reading (directory : Long)
  | writing
  | ended (result : CmdResult)
  deriving DecidableEq, Repr

/-- The control unit: registers, device state and command work (10_control_reporting_and_events.md). -/
structure Control where
  device : DeviceState
  inFlight : Option CommandName
  last : Option CommandName
  result : CmdResult
  ignored : Bool
  directory : Long
  events : Byte
  enable : Byte
  line : Bool
  readData : Word
  settings : Option Settings
  start : Option StartWork
  filterLoad : Option TableRead
  regionReload : Option TableRead
  probe : Option ProbeWork
  notice : Bool
  drainEnding : Bool
  endedTest : Option CmdResult
  deriving DecidableEq, Repr

/-- The interval timer (R175). -/
structure Timer where
  period : Nat
  number : Word
  running : Bool
  deriving DecidableEq, Repr

/-! ### The program controller -/

/-- The live fields last read, after clamping (R1, R2, R3). -/
structure Live where
  mode : DesiredMode
  weight : Nat
  min : Nat
  max : Nat
  target : Option Parity
  interval : Word
  cueClear : Bool
  deriving DecidableEq, Repr

/-- The fixed fields copied at program start (R4, R5). -/
structure Fixed where
  chainStart : Long
  faultArea : Long
  bufferSize : Nat
  accessKey : Byte
  depth : Nat
  delay : Nat
  scrambled : Bool
  tolerant : Bool
  deriving DecidableEq, Repr

/-- A copy of one slice descriptor (R25). -/
structure SliceDesc where
  offset : Nat
  length : Nat
  qIn : Nat
  deriving DecidableEq, Repr

/-- A side entry as read from the side table (7.1). -/
structure SideEntry where
  address : Long
  length : Nat
  target : Nat
  group : Nat
  deriving DecidableEq, Repr

/-- What a window slot keeps of one side entry (R33). -/
structure SlotSide where
  disposition : Disposition
  address : Long
  length : Nat
  deriving DecidableEq, Repr

/-- A window slot (R33). `faulted` says that the record has been written FAULTED (R13, R37). -/
structure Slot where
  takeNumber : Word
  record : Long
  sequence : Word
  kind : Kind
  sourceSize : Nat
  sliceBase : Long
  slices : List SliceDesc
  qMean : Nat
  complexity : Nat
  sides : List SlotSide
  faulted : Bool
  deriving DecidableEq, Repr

/-- A lookahead window (R31). -/
structure Window where
  head : Fin 4
  count : Nat
  slots : Vector Slot 4
  deriving DecidableEq, Repr

/-- What the recoder reports of a job's end to the program controller (R23, R85, R86, R88, R89): a finish carries the six
values of R85's table. -/
inductive ReportBody where
  | finish (outcome : Outcome) (pass size cells meanQ debt : Nat)
  | fault (f : Failure) (pass : Nat)
  deriving DecidableEq, Repr

/-- A report of a job, naming its program, slot and take number (R39). -/
structure Report where
  program : Program
  slot : Fin 4
  takeNumber : Word
  interval : Word
  body : ReportBody
  deriving DecidableEq, Repr

/-- Which write of a report's handling is in flight (R22, R23): the outcome fields, the state DONE, the FAULTED attempt
after one of them failed, or the FAULTED write of a STRICT fault. -/
inductive FinishPhase where
  | outcome
  | state
  | afterFailure (f : Failure)
  | strict
  deriving DecidableEq, Repr

/-- A report being handled. -/
structure FinishWork where
  report : Report
  phase : FinishPhase
  deriving DecidableEq, Repr

/-- The context of one program (R5, R31). -/
structure ProgramCtx where
  state : ProgramState
  live : Option Live
  fixed : Fixed
  nextRecord : Long
  window : Window
  takeNumber : Word
  lastPair : Option Parity × Word
  lastOutcome : Option Outcome
  lastInterval : Word
  refused : StartRefusal
  finish : Option FinishWork
  deriving DecidableEq, Repr

/-- The record fields a take keeps while it runs (R18 step 3). -/
structure RecordFields where
  sequence : Word
  link : Long
  kind : Nat
  sliceCount : Nat
  sideCount : Nat
  sourceSize : Nat
  sliceTable : Long
  sliceBase : Long
  sideTable : Long
  deriving DecidableEq, Repr

/-- The part of a fault record that the fault itself gives (R167). -/
structure FaultInfo where
  cause : FaultCause
  result : Option AccessResult
  record : Long
  sequence : Word
  addr : Long
  length : Nat
  kind : AccessKind
  region : Byte
  pass : Nat
  deriving DecidableEq, Repr

/-- Where an intake stands in its current program: the access it waits for (R1, R4, R18, R13), or all programs done. A finish
at intake keeps the coding interval that its outcome fields carry (R22), also while FAULTED is attempted after it. -/
inductive IntakePhase where
  | live
  | fixed
  | waitFinish
  | abandonOutcome (index : Nat)
  | abandonState (index : Nat)
  | stateRead
  | recordRead
  | sliceTable (rec : RecordFields)
  | sideTable (rec : RecordFields) (slices : List SliceDesc)
  | headRead (rec : RecordFields) (slices : List SliceDesc) (done : List SlotSide) (entry : SideEntry) (rest : List SideEntry)
  | taken (slot : Slot) (link : Long)
  | finishOutcome (outcome : Outcome) (interval : Word) (rec : RecordFields)
  | finishState (outcome : Outcome) (interval : Word) (rec : RecordFields)
  | faulted (info : FaultInfo) (outcome : Option (Outcome × Word))
  | allDone
  deriving DecidableEq, Repr

/-- The intake in flight (R1): its interval, the program it is at, the takes counted for it (R19), and whether a HALT has
asked it to end (R15). -/
structure Intake where
  interval : Word
  program : Program
  takes : Nat
  halted : Bool
  phase : IntakePhase
  deriving DecidableEq, Repr

/-- The controller's work at HALT (R15): waiting for the intake, abandoning windows (the list holds the programs still to
visit, the one being abandoned first), writing the status parts, done. -/
inductive HaltPhase where
  | waitIntake (writesStatus : Bool)
  | waitFinish (todo : List Program) (writesStatus : Bool)
  | outcome (todo : List Program) (index : Nat) (writesStatus : Bool)
  | state (todo : List Program) (index : Nat) (writesStatus : Bool)
  | status
  | done
  deriving DecidableEq, Repr

/-- The section flags the program controller and the report unit note for a program (R181). `sideFault` is the SIDE_FAULT of
an unreadable side table (R18 step 8). -/
structure Notes where
  configClamped : Bool
  entryUnreadable : Bool
  statusUnwritten : Bool
  heldFault : Bool
  faultRecordLost : Bool
  abandonWriteFault : Bool
  sideFault : Bool
  deriving DecidableEq, Repr

/-- The program controller (01_programs_and_the_picture_chain.md). `intakeNotes` are the flags the intake in flight has
set, which join `notes` when it ends (R24). -/
structure Controller where
  programs : PerProgram ProgramCtx
  intake : Option Intake
  reports : List Report
  halt : Option HaltPhase
  statusTodo : List Program
  statusSeen : Bool
  notes : PerProgram Notes
  intakeNotes : PerProgram Notes
  deriving DecidableEq, Repr

/-! ### The rate allocator -/

/-- The grant of one coding program (R56). -/
structure Grant where
  program : Program
  slot : Fin 4
  takeNumber : Word
  sequence : Word
  budget : Nat
  room : Nat
  tight : Bool
  pinned : Bool
  deriving DecidableEq, Repr

/-- A program of the hold group, with its STARVED condition (R45, R65). -/
structure Hold where
  program : Program
  starved : Bool
  deriving DecidableEq, Repr

/-- The results of one allocation (R44 to R56). -/
structure Allocation where
  interval : Word
  pool : Nat
  reserve : Nat
  grants : List Grant
  holds : List Hold
  primed : List Program
  seed : Nat
  scaled : Bool
  deriving DecidableEq, Repr

/-- What the recoder reports of a job's completion to the allocator (R60, R63, R85). -/
structure CompletionReport where
  program : Program
  interval : Word
  outcome : Outcome
  pass : Nat
  size : Nat
  cells : Nat
  meanQ : Nat
  debt : Nat
  deriving DecidableEq, Repr

/-- The rate allocator (R43). `current` is the completed allocation of the open interval and `reported` the programs whose
job of it has reported (R60, R61). -/
structure Allocator where
  delivered : PerProgram (List Nat)
  debt : PerProgram Nat
  rotation : Fin 16
  inFlight : Option Allocation
  isOpen : Bool
  current : Option Allocation
  reported : List Program
  reports : List CompletionReport
  deriving DecidableEq, Repr

/-! ### The recoder -/

/-- One entry of the code table (R67). -/
structure CodeEntry where
  length : Nat
  value : BitVec 16
  deriving DecidableEq, Repr

/-- A job (R68). -/
structure Job where
  program : Program
  interval : Word
  slot : Fin 4
  takeNumber : Word
  budget : Nat
  room : Nat
  count : BitVec 4
  pass : Nat
  draw : Nat
  debt : Nat
  pages : List Nat
  deriving DecidableEq, Repr

/-- What an engine copies from the window slot when it takes a job (R39, R71). -/
structure Source where
  sequence : Word
  kind : Kind
  sourceSize : Nat
  sliceBase : Long
  slices : List SliceDesc
  deriving DecidableEq, Repr

/-- Why a pass stopped before its end (R79). -/
inductive StopReason where
  | notAccepted | bufferHold | overrun
  deriving DecidableEq, Repr

/-- The pass an engine is running (R72, R77 to R79): its quantizers, cutoff and limits in bytes with the reason each
names, the next slice, the bytes counted so far, and the quantizers and size of pass 1 for pass 2. -/
structure PassWork where
  source : Source
  quants : List Nat
  cutoff : Nat
  limits : List (Nat × StopReason)
  next : Nat
  size : Nat
  stopped : Option StopReason
  deriving DecidableEq, Repr

/-- An accepted result being built (R84): its size, mean q_out and, for a SCRAMBLED program, the parity and word. -/
structure Build where
  sequence : Word
  size : Nat
  meanQ : Nat
  key : Option (Parity × Long)
  deriving DecidableEq, Repr

/-- An engine's state with the job it holds (R68). -/
inductive EnginePhase where
  | idle
  | coding (job : Job) (work : PassWork)
  | passEnded (job : Job) (work : PassWork)
  | building (job : Job) (build : Build)
  deriving DecidableEq, Repr

/-- One recoding engine with its scratch buffer (R68). -/
structure EngineState where
  phase : EnginePhase
  scratch : List Byte
  deriving DecidableEq, Repr

/-- What the recoder hands the report unit of a program's job (R87). -/
structure JobFigures where
  outcome : Option Outcome
  pass : Nat
  cells : Nat
  meanQ : Nat
  deriving DecidableEq, Repr

/-- The recoder (R68). -/
structure Recoder where
  codeTable : Option (List CodeEntry)
  queue : List Job
  re0 : EngineState
  re1 : EngineState
  spare : Nat
  counters : PerProgram (BitVec 4)
  figures : PerProgram (Option JobFigures)
  deriving DecidableEq, Repr

/-! ### The key unit -/

/-- A key slot (R93). -/
inductive KeySlot where
  | empty
  | installing
  | loaded (word : Long)
  deriving DecidableEq, Repr

/-- A slot's state without its word (R102). -/
inductive SlotState where
  | empty | installing | loaded
  deriving DecidableEq, Repr

/-- The two slots of a program (R93). -/
structure KeyPair where
  even : KeySlot
  odd : KeySlot
  deriving DecidableEq, Repr

/-- A parity record (R94). Active parity CLEAR is none. -/
structure ParityRecord where
  scrambled : Bool
  inForce : Bool
  active : Option Parity
  pending : Option (Parity × Word)
  switchHeld : Bool
  deriving DecidableEq, Repr

/-- The selection's operation (5.2). -/
inductive KeyOperation where
  | none | load | erase
  deriving DecidableEq, Repr

/-- Key results (5.2, R186). -/
inductive KeyResult where
  | none | loaded | erased | refusedActive | badOperation
  deriving DecidableEq, Repr

/-- An install in flight (R99). -/
structure Install where
  program : Program
  parity : Parity
  word : Long
  deriving DecidableEq, Repr

/-- A capture in flight with its samples (R101). -/
structure Capture where
  program : Program
  parity : Parity
  slot : KeySlot
  deriving DecidableEq, Repr

/-- The check holding (R102). -/
structure Holding where
  program : Program
  parity : Parity
  state : SlotState
  check : BitVec 24
  stale : Bool
  deriving DecidableEq, Repr

/-- The key unit (R93, R94, 5.2). -/
structure Keys where
  slots : PerProgram KeyPair
  records : PerProgram ParityRecord
  selProgram : Program
  selParity : Parity
  selOperation : KeyOperation
  dataIndex : BitVec 2
  staged : Word
  install : Option Install
  result : KeyResult
  busy : Bool
  ignored : Bool
  capture : Option Capture
  holding : Holding
  deriving DecidableEq, Repr

/-! ### The side path and message filter -/

/-- Actions of a flexible filter (7.2). -/
inductive FilterAction where
  | carry | drop | cue
  deriving DecidableEq, Repr

/-- A flexible filter (7.2). -/
structure Filter where
  enabled : Bool
  action : FilterAction
  compare : Nat
  mask : Long
  pattern : List Byte
  deriving DecidableEq, Repr

/-- A filter table (7.1, 7.2): broadcast flag, whether the default action is CARRY, group vector, filters in index order. -/
structure FilterTable where
  broadcast : Bool
  defaultCarry : Bool
  groups : Long
  filters : List Filter
  deriving DecidableEq, Repr

/-- A queued side message (R139). -/
structure Message where
  program : Program
  key : Byte
  index : Nat
  address : Long
  length : Nat
  deriving DecidableEq, Repr

/-- A reserved message's state (R140). -/
inductive ReservedState where
  | waiting | building | built
  deriving DecidableEq, Repr

/-- An entry of the reserved list (R140). -/
structure Reserved where
  message : Message
  state : ReservedState
  deriving DecidableEq, Repr

/-- The side build in flight (R141): its message, its page and, once read, the message's bytes. -/
structure SideBuild where
  message : Message
  page : Nat
  data : Option (List Byte)
  deriving DecidableEq, Repr

/-- The side path and message filter (07_side_messages_and_filters.md, state table). -/
structure Side where
  table : Option FilterTable
  latch : PerProgram Bool
  level : PerProgram Bool
  queue : List Message
  reserved : List Reserved
  build : Option SideBuild
  stopped : Bool
  counters : PerProgram (BitVec 4)
  faultNote : PerProgram Bool
  cueNote : PerProgram Bool
  deriving DecidableEq, Repr

/-! ### The cell store and the line output -/

/-- Where the page under test came from (R125). -/
inductive PageOrigin where
  | free | retired
  deriving DecidableEq, Repr

/-- A page test's progress (R124 to R127): no page under test, with the current page still to be tested; a page under test;
writing its record; or ended with a result. -/
inductive TestPhase where
  | between
  | pages (page : Nat) (origin : PageOrigin)
  | writing
  | ended (result : CmdResult)
  deriving DecidableEq, Repr

/-- The test state (R124). `next` is the page after the last one tested, which is the current page while pages are tested. -/
structure PageTest where
  last : Nat
  tested : Nat
  usable : Nat
  retired : Nat
  next : Nat
  interrupted : Bool
  phase : TestPhase
  deriving DecidableEq, Repr

/-- The written places of the cell store: (place, the cell's 200 bytes), places strictly rising; place number
20 × page + place in the page (R116, R118). An unlisted place is unwritten. -/
abbrev CellMemory := List (Nat × List Byte)

/-- The cell store (R116). `residue` holds what places that are not written still hold (R128): a place that no build has
written since the last power-on or bus function reset, or that a pattern test has overwritten since, is not listed, and a
written place may be listed with what it held before. -/
structure Store where
  free : List Nat
  retired : List Nat
  marks : List Nat
  cells : CellMemory
  residue : CellMemory
  correctable : Nat
  errorNote : Bool
  test : Option PageTest
  deriving DecidableEq, Repr

/-- An entry of the line output's lists (R115). -/
inductive Entry where
  | stored (page place : Nat)
  | produced (program : Program) (count : BitVec 4) (sequence : BitVec 16)
  deriving DecidableEq, Repr

/-- A program's sequence in the building list, in its three parts (R147). -/
structure Parts where
  deferred : List Entry
  picture : List Entry
  side : List Entry
  deriving DecidableEq, Repr

/-- A program's sequence in the sending list with its next index (R150, R152). -/
structure Sending where
  entries : List Entry
  next : Nat
  deriving DecidableEq, Repr

/-- The line output (08_the_cell_line.md, state table). `out` is the cell the last request was answered with. -/
structure Line where
  active : Bool
  building : PerProgram Parts
  buildingPages : List Nat
  sending : PerProgram Sending
  sendingPages : List Nat
  holding : PerProgram (List Entry)
  holdingPages : List Nat
  request : Nat
  nulls : Nat
  shortfall : Nat
  discards : PerProgram Bool
  out : Option (List Byte)
  deriving DecidableEq, Repr

/-! ### The report unit -/

/-- One section of a report (R181). -/
structure SectionFigures where
  program : Program
  state : ProgramState
  outcome : Option Outcome
  pass : Nat
  budget : Nat
  cells : Nat
  meanQ : Nat
  debt : Nat
  flags : BitVec 16
  delivered : Nat
  deriving DecidableEq, Repr

/-- The figures gathered at a boundary (R181); `endsDrain` marks the report whose end brings the device to IDLE (R176). -/
structure Figures where
  interval : Word
  nulls : Nat
  pool : Nat
  reserve : Nat
  spare : Nat
  shortfall : Nat
  correctable : Nat
  freePages : Nat
  flags : Byte
  sections : List SectionFigures
  endsDrain : Bool
  deriving DecidableEq, Repr

/-- The access of a report that is in flight (R170). -/
inductive ReportPhase where
  | consumed | record | index
  deriving DecidableEq, Repr

/-- A report being written. -/
structure ReportWork where
  figures : Figures
  phase : ReportPhase
  deriving DecidableEq, Repr

/-- A fault record request (R166, R167). -/
structure FaultRequest where
  program : Program
  area : Long
  key : Byte
  interval : Word
  info : FaultInfo
  count : Nat
  sequences : List Word
  deriving DecidableEq, Repr

/-- The write of the fault record at the head of the queue (R166): in flight, or ended with or without success. -/
inductive FaultWrite where
  | waiting
  | ended (written : Bool)
  deriving DecidableEq, Repr

/-- The report unit (R166, R180). -/
structure Reporter where
  isOn : Bool
  writeIndex : Nat
  skipped : Nat
  work : Option ReportWork
  waiting : List Figures
  faultQueue : List FaultRequest
  faultWrite : Option FaultWrite
  deriving DecidableEq, Repr

/-! ### The whole device -/

/-- The state of the device, with the queue of commands that wait for it and the count of free values used. -/
structure State where
  pending : List Instr
  freeCount : Nat
  control : Control
  timer : Timer
  link : Link
  controller : Controller
  allocator : Allocator
  recoder : Recoder
  keys : Keys
  side : Side
  store : Store
  line : Line
  reporter : Reporter
  deriving DecidableEq, Repr

/-- Why a step stops. -/
inductive Fault where
  /-- Raised by CELL_REQUEST when the entry to send names a place that no build has written: R118 says such a place is
  never read, and nothing says what it holds. Safe: the model stops where no run of the device goes. -/
  | unwrittenPlace
  deriving DecidableEq, Repr

/-- Why a command has no meaning. -/
inductive Refusal where
  /-- A command not modelled yet, by its mnemonic. Safe. No arm of exec raises it. -/
  | notModelled (mnemonic : String)
  deriving DecidableEq, Repr

/-! ### Values after power-on reset -/

/-- R158, R161: no table, no access. -/
def Link.reset : Link := { regions := none, accesses := [], nextTag := 0 }

/-- R179: all registers 0, IDLE. -/
def Control.reset : Control :=
  { device := .idle, inFlight := none, last := none, result := .none, ignored := false, directory := 0, events := 0
    enable := 0, line := false, readData := 0, settings := none, start := none, filterLoad := none, regionReload := none
    probe := none, notice := false, drainEnding := false, endedTest := none }

/-- R175, R179: stopped, interval number 0. -/
def Timer.reset : Timer := { period := 0, number := 0, running := false }

/-- A slot no take has written (log 9). -/
def Slot.blank : Slot :=
  { takeNumber := 0, record := 0, sequence := 0, kind := .key, sourceSize := 0, sliceBase := 0, slices := [], qMean := 0
    complexity := 0, sides := [], faulted := false }

/-- R31: head 0, count 0. -/
def Window.reset : Window := { head := 0, count := 0, slots := Vector.replicate 4 Slot.blank }

/-- Fixed fields of a program that no start has read (log 9). -/
def Fixed.blank : Fixed :=
  { chainStart := 0, faultArea := 0, bufferSize := 0, accessKey := 0, depth := 0, delay := 0, scrambled := false
    tolerant := false }

/-- R15: OFF, empty window, next record address 0, no live values, code NONE, no last outcome. -/
def ProgramCtx.reset : ProgramCtx :=
  { state := .off, live := none, fixed := Fixed.blank, nextRecord := 0, window := Window.reset, takeNumber := 0
    lastPair := (none, 0), lastOutcome := none, lastInterval := 0, refused := .none, finish := none }

/-- No flag set. -/
def Notes.clear : Notes :=
  { configClamped := false, entryUnreadable := false, statusUnwritten := false, heldFault := false
    faultRecordLost := false, abandonWriteFault := false, sideFault := false }

/-- R15, R181. -/
def Controller.reset : Controller :=
  { programs := PerProgram.fill ProgramCtx.reset, intake := none, reports := [], halt := none, statusTodo := []
    statusSeen := false, notes := PerProgram.fill Notes.clear, intakeNotes := PerProgram.fill Notes.clear }

/-- R43. -/
def Allocator.reset : Allocator :=
  { delivered := PerProgram.fill [], debt := PerProgram.fill 0, rotation := 0, inFlight := none, isOpen := false
    current := none, reported := [], reports := [] }

/-- An idle engine (R68). -/
def EngineState.reset : EngineState := { phase := .idle, scratch := [] }

/-- R68. -/
def Recoder.reset : Recoder :=
  { codeTable := none, queue := [], re0 := EngineState.reset, re1 := EngineState.reset, spare := 0
    counters := PerProgram.fill 0, figures := PerProgram.fill none }

/-- R94. -/
def ParityRecord.reset : ParityRecord :=
  { scrambled := false, inForce := false, active := none, pending := none, switchHeld := false }

/-- 5.2: the holding is all 0 and stale. -/
def Holding.reset : Holding := { program := 0, parity := .even, state := .empty, check := 0, stale := true }

/-- R93, R94, 5.2. -/
def Keys.reset : Keys :=
  { slots := PerProgram.fill { even := .empty, odd := .empty }, records := PerProgram.fill ParityRecord.reset
    selProgram := 0, selParity := .even, selOperation := .none, dataIndex := 0, staged := 0, install := none
    result := .none, busy := false, ignored := false, capture := none, holding := Holding.reset }

/-- R136, R137, R139, R142, R144. -/
def Side.reset : Side :=
  { table := none, latch := PerProgram.fill false, level := PerProgram.fill false, queue := [], reserved := []
    build := none, stopped := false, counters := PerProgram.fill 0, faultNote := PerProgram.fill false
    cueNote := PerProgram.fill false }

/-- R128: every page in the free list in ascending order. -/
def Store.reset : Store :=
  { free := List.range Config.pageCount, retired := [], marks := [], cells := [], residue := [], correctable := 0
    errorNote := false, test := none }

/-- A sequence with no entry. -/
def Parts.empty : Parts := { deferred := [], picture := [], side := [] }

/-- R145, R157. -/
def Line.reset : Line :=
  { active := false, building := PerProgram.fill Parts.empty, buildingPages := []
    sending := PerProgram.fill { entries := [], next := 0 }, sendingPages := [], holding := PerProgram.fill []
    holdingPages := [], request := 0, nulls := 0, shortfall := 0, discards := PerProgram.fill false, out := none }

/-- R166, R179: reporting off, queue empty. -/
def Reporter.reset : Reporter :=
  { isOn := false, writeIndex := 0, skipped := 0, work := none, waiting := [], faultQueue := [], faultWrite := none }

/-- The device right after power-on reset (R179, and each block's rule), with no command waiting. -/
def State.reset : State :=
  { pending := [], freeCount := 0, control := Control.reset, timer := Timer.reset, link := Link.reset
    controller := Controller.reset, allocator := Allocator.reset, recoder := Recoder.reset, keys := Keys.reset
    side := Side.reset, store := Store.reset, line := Line.reset, reporter := Reporter.reset }

end Sys2Proof.Machine
end

