-- ==== Sys2Proof/Machine/Ops.lean ====
section
/-! DEFINITION. The shared operations: per-program tables, the parts of the state, the memory link's check and issue, the
cell store's pages and places, and the events. -/

namespace Sys2Proof.Machine

/-! ### Per-program tables -/

/-- The value of a program. -/
def PerProgram.look {α : Type} (v : PerProgram α) (p : Program) : α := v[p]

/-- The table with another value for one program. -/
def PerProgram.put {α : Type} (v : PerProgram α) (p : Program) (x : α) : PerProgram α := v.set p.val x p.isLt

/-- The table with one program's value changed. -/
def PerProgram.modify {α : Type} (v : PerProgram α) (p : Program) (f : α → α) : PerProgram α := v.put p (f (v.look p))

/-- The table of a function of the program. -/
def PerProgram.tabulate {α : Type} (f : Program → α) : PerProgram α :=
  #v[f 0, f 1, f 2, f 3, f 4, f 5, f 6, f 7, f 8, f 9, f 10, f 11, f 12, f 13, f 14, f 15]

/-- The programs in ascending order. -/
def programs : List Program := [0, 1, 2, 3, 4, 5, 6, 7, 8, 9, 10, 11, 12, 13, 14, 15]

/-- The programs above `p`, ascending. -/
def programsAfter (p : Program) : List Program := programs.filter fun q => p < q

/-! ### The parts of the state -/

/-- The state with another queue. -/
def State.setPending (s : State) (x : List Instr) : State := { s with pending := x }

/-- The state with another count of free values used. -/
def State.setFreeCount (s : State) (x : Nat) : State := { s with freeCount := x }

/-- The state with another control. -/
def State.setControl (s : State) (x : Control) : State := { s with control := x }

/-- The state with another timer. -/
def State.setTimer (s : State) (x : Timer) : State := { s with timer := x }

/-- The state with another link. -/
def State.setLink (s : State) (x : Link) : State := { s with link := x }

/-- The state with another controller. -/
def State.setController (s : State) (x : Controller) : State := { s with controller := x }

/-- The state with another allocator. -/
def State.setAllocator (s : State) (x : Allocator) : State := { s with allocator := x }

/-- The state with another recoder. -/
def State.setRecoder (s : State) (x : Recoder) : State := { s with recoder := x }

/-- The state with another keys. -/
def State.setKeys (s : State) (x : Keys) : State := { s with keys := x }

/-- The state with another side. -/
def State.setSide (s : State) (x : Side) : State := { s with side := x }

/-- The state with another store. -/
def State.setStore (s : State) (x : Store) : State := { s with store := x }

/-- The state with another line. -/
def State.setLine (s : State) (x : Line) : State := { s with line := x }

/-- The state with another reporter. -/
def State.setReporter (s : State) (x : Reporter) : State := { s with reporter := x }

/-- The context of a program. -/
def State.ctx (s : State) (p : Program) : ProgramCtx := s.controller.programs.look p

/-- The state with one program's context changed. -/
def State.modCtx (s : State) (p : Program) (f : ProgramCtx → ProgramCtx) : State :=
  s.setController { s.controller with programs := s.controller.programs.modify p f }

/-- An engine of the recoder. -/
def Recoder.engine (r : Recoder) : Engine → EngineState
  | .re0 => r.re0
  | .re1 => r.re1

/-- The recoder with another state of one engine. -/
def Recoder.setEngine (r : Recoder) (e : Engine) (x : EngineState) : Recoder :=
  match e with
  | .re0 => { r with re0 := x }
  | .re1 => { r with re1 := x }

/-- The settings of the run, or `fallback` where there are none (no block uses a setting then). -/
def State.settingsD (s : State) : Settings :=
  s.control.settings.getD
    { directory := 0, programTable := 0, codeTable := 0, filterTable := 0, regionTable := 0, reportBase := 0, period := 0
      cpi := 0, sMax := 0, kfKey := 0, kfPred := 0, kfBi := 0, deadZone := 0, reportSlots := 0, firstProgram := 0
      lastProgram := 0 }

/-! ### Events and commands (R172, R182, R183) -/

/-- The eight event flags in the order of their bits (R185). -/
inductive EventFlag where
  | commandDone | reportWritten | reportSkipped | programHeld | cueLatched | keyDone | storeError | lineShortfall
  deriving DecidableEq, Repr

/-- The flag's bit (R185). -/
def EventFlag.bit : EventFlag → Byte
  | .commandDone => 1
  | .reportWritten => 2
  | .reportSkipped => 4
  | .programHeld => 8
  | .cueLatched => 16
  | .keyDone => 32
  | .storeError => 64
  | .lineShortfall => 128

/-- R183: the line is asserted exactly when some flag and its enable are both set. -/
def Control.drive (c : Control) (events enable : Byte) : Control :=
  { c with events := events, enable := enable, line := (events &&& enable) != 0 }

/-- R182: a block raises a flag. -/
def State.raise (s : State) (f : EventFlag) : State :=
  s.setControl (s.control.drive (s.control.events ||| f.bit) s.control.enable)

/-- R172: a command's completion event. -/
def State.complete (s : State) (last : Option CommandName) (result : CmdResult) : State :=
  (s.setControl { s.control with last := last, result := result, inFlight := none }).raise .commandDone

/-! ### The memory link (R159 to R161) -/

/-- What a block asks of the link: an unchecked access carries no key (R159). -/
structure Request where
  agent : Agent
  kind : AccessKind
  addr : Long
  length : Nat
  key : Option Byte
  data : List Byte
  deriving DecidableEq, Repr

/-- A read of `length` bytes. -/
def readRequest (agent : Agent) (key : Option Byte) (addr : Long) (length : Nat) : Request :=
  { agent := agent, kind := .read, addr := addr, length := length, key := key, data := [] }

/-- A write of `data`. -/
def writeRequest (agent : Agent) (key : Option Byte) (addr : Long) (data : List Byte) : Request :=
  { agent := agent, kind := .write, addr := addr, length := data.length, key := key, data := data }

/-- R160 step 1: a valid entry whose range wholly contains the access's range. -/
def Region.contains (r : Region) (addr : Long) (length : Nat) : Bool :=
  decide (r.length.toNat ≠ 0 ∧ r.base.toNat ≤ addr.toNat ∧ addr.toNat + length ≤ r.base.toNat + r.length.toNat)

/-- R160 step 1: the lowest-indexed containing entry, with its index counted from `i`. -/
def findRegion (addr : Long) (length : Nat) : Nat → List Region → Option (Nat × Region)
  | _, [] => none
  | i, r :: rest => if r.contains addr length then some (i, r) else findRegion addr length (i + 1) rest

/-- R160 step 3. -/
def Rights.admits : Rights → AccessKind → Bool
  | .none, _ => false
  | .read, .read => true
  | .read, .write => false
  | .readWrite, _ => true

/-- The region index of an access that no entry contains or that is not checked (R160, R161). -/
def noIndex : Byte := 0xFF

/-- R160: the three steps against one table; the first that fails gives the result. -/
def checkTable (table : List Region) (key : Byte) (kind : AccessKind) (addr : Long) (length : Nat) :
    Except (AccessResult × Byte) Byte :=
  match findRegion addr length 0 table with
  | none => .error (.noRegion, noIndex)
  | some (i, r) =>
    let index := BitVec.ofNat 8 i
    if r.key ≠ 0 ∧ r.key ≠ key then .error (.keyMismatch, index)
    else if r.rights.admits kind then .ok index
    else .error (.rights, index)

/-- R159, R160: an unchecked access passes; with no table in force a key-0 access passes and any other finds no region. -/
def checkAccess (regions : Option (List Region)) (r : Request) : Except (AccessResult × Byte) Byte :=
  match r.key, regions with
  | none, _ => .ok noIndex
  | some key, none => if key = 0 then .ok noIndex else .error (.noRegion, noIndex)
  | some key, some table => checkTable table key r.kind r.addr r.length

/-- The failure a requester is told of. -/
def Request.failure (r : Request) (result : AccessResult) (region : Byte) : Failure :=
  { result := result, region := region, kind := r.kind, addr := r.addr, length := r.length }

/-- The access in flight that a passed check issues. -/
def Request.access (r : Request) (tag : Nat) (region : Byte) : Access :=
  { tag := tag, agent := r.agent, kind := r.kind, addr := r.addr, length := r.length, key := r.key, region := region
    data := r.data }

/-- A state, with the reply of an access that was refused at once: none means that the next reply comes from the bus, or
that there is no access to wait for. -/
abbrev Cont := State × Option Reply

/-- Issue an access: a refused one makes no bus transaction and its failure goes back to the requester at once (R160). -/
def State.issue (s : State) (r : Request) : Cont :=
  match checkAccess s.link.regions r with
  | .ok region =>
    (s.setLink { s.link with accesses := s.link.accesses ++ [r.access s.link.nextTag region]
                             nextTag := s.link.nextTag + 1 }, none)
  | .error (result, region) => (s, some (.failed (r.failure result region)))

/-- The accesses of agents that `p` names are dropped: their completions are then discarded (log 2). -/
def State.dropAccesses (s : State) (p : Agent → Bool) : State :=
  s.setLink { s.link with accesses := s.link.accesses.filter fun a => !p a.agent }

/-- The failure of an access that ends with BUS (R161). -/
def Access.busFailure (a : Access) : Failure :=
  { result := .bus, region := a.region, kind := a.kind, addr := a.addr, length := a.length }

/-! ### The cell store (R116 to R123) -/

/-- A page number put into an ascending list of page numbers, each at most once. -/
def insertPage (n : Nat) : List Nat → List Nat
  | [] => [n]
  | m :: rest => if n < m then n :: m :: rest else if n = m then m :: rest else m :: insertPage n rest

/-- A list of page numbers in ascending order, each once. -/
def sortPages (pages : List Nat) : List Nat := pages.foldr insertPage []

/-- The number of a place (R116). -/
def placeIndex (page place : Nat) : Nat := Config.placesPerPage * page + place

/-- The page of a place. -/
def pageOfPlace (index : Nat) : Nat := index / Config.placesPerPage

/-- The canonical form of the written places: strictly rising, each with the 200 bytes of a cell. -/
def CellMemory.wf (m : CellMemory) : Bool :=
  decide ((m.map Prod.fst).Pairwise (· < ·)) && m.all fun e => e.2.length == Config.cellBytes

/-- The cell of a place, none where no build has written it (R118). -/
def CellMemory.read (m : CellMemory) (index : Nat) : Option (List Byte) :=
  match m with
  | [] => none
  | (i, c) :: rest => if i = index then some c else CellMemory.read rest index

/-- The write of one place (R118). -/
def CellMemory.write (index : Nat) (cell : List Byte) : CellMemory → CellMemory
  | [] => [(index, cell)]
  | (i, c) :: rest =>
    if index < i then (index, cell) :: (i, c) :: rest
    else if index = i then (index, cell) :: rest
    else (i, c) :: CellMemory.write index cell rest

/-- The places of some pages cleared (R119). -/
def CellMemory.clearPages (m : CellMemory) (pages : List Nat) : CellMemory :=
  m.filter fun e => !pages.contains (pageOfPlace e.1)

/-- The places of some pages. -/
def CellMemory.ofPages (m : CellMemory) (pages : List Nat) : CellMemory :=
  m.filter fun e => pages.contains (pageOfPlace e.1)

/-- The writes of a list of places (R118). -/
def CellMemory.writeAll (m : CellMemory) (cells : List (Nat × List Byte)) : CellMemory :=
  cells.foldl (fun m e => CellMemory.write e.1 e.2 m) m

/-- R117: a request is served whole from the head of the free list, or refused. -/
def Store.request (st : Store) (n : Nat) : Option (List Nat × Store) :=
  if n ≤ st.free.length then some (st.free.take n, { st with free := st.free.drop n }) else none

/-- What every place holds, written or not (R128). -/
def Store.contents (st : Store) : CellMemory := st.residue.writeAll st.cells

/-- R119: the written places of some pages are cleared: unwritten from now on, they keep what they hold. -/
def Store.clear (st : Store) (pages : List Nat) : Store :=
  { st with cells := st.cells.clearPages pages, residue := st.residue.writeAll (st.cells.ofPages pages) }

/-- R119, R123: one event's return of pages. Marked pages join the retired set and lose their mark, the others join the
tail of the free list in ascending order; the places of all are cleared. -/
def Store.giveBack (st : Store) (pages : List Nat) : Store :=
  let sorted := sortPages pages
  let marked := sorted.filter st.marks.contains
  { st.clear sorted with
    free := st.free ++ sorted.filter fun p => !st.marks.contains p
    retired := marked.foldl (fun r p => insertPage p r) st.retired
    marks := st.marks.filter fun p => !sorted.contains p }

/-- Every page that is not retired, in ascending order (R128). -/
def freeOf (retired : List Nat) : List Nat := (List.range Config.pageCount).filter fun p => !retired.contains p

/-- R128, R130: the store as a START or a RESET leaves it, with a retired set. The contents of its pages are not changed. -/
def Store.rebuilt (st : Store) (retired : List Nat) : Store :=
  { free := freeOf retired, retired := retired, marks := [], cells := [], residue := st.contents, correctable := 0
    errorNote := false, test := none }

/-- One event's return of pages to the store. -/
def State.returnPages (s : State) (pages : List Nat) : State := s.setStore (s.store.giveBack pages)

/-- The pages a job holds (R68). -/
def EnginePhase.pages : EnginePhase → List Nat
  | .idle => []
  | .coding j _ => j.pages
  | .passEnded j _ => j.pages
  | .building j _ => j.pages

/-- The page under test (R125). -/
def PageTest.page (t : PageTest) : List Nat :=
  match t.phase with
  | .pages p _ => [p]
  | _ => []

/-- R116: who holds each page: free list, retired set, builds of RE0, RE1 and the side path, building list, sending list,
deferred holdings, the test. -/
def State.pageHolders (s : State) : List (List Nat) :=
  [s.store.free, s.store.retired, s.recoder.re0.phase.pages, s.recoder.re1.phase.pages
   , (s.side.build.map fun b => [b.page]).getD [], s.line.buildingPages, s.line.sendingPages, s.line.holdingPages
   , (s.store.test.map PageTest.page).getD []]

end Sys2Proof.Machine
end

