-- ==== Sys2Proof/Machine/Allocation.lean ====
section
/-! DEFINITION. The arithmetic of one allocation (03_rate_allocation.md, 3.2) and of the receiver buffer model (3.3). -/

namespace Sys2Proof.Machine

/-- R38: the effective complexity of a window, from A's complexity and those behind it. -/
def effectiveComplexity (xs : List Nat) : Nat :=
  match xs with
  | [] => 0
  | a :: rest => (2 * a + rest.sum) / (rest.length + 2)

/-- R49: the room, with each missing entry of the delivered list counted as 8 bytes. -/
def roomOf (bufferSize delay : Nat) (delivered : List Nat) : Nat :=
  bufferSize - ((delivered.reverse.take (delay - 1)).sum + 8 * (delay - 1 - delivered.length))

/-- R59: an append to a delivered list of at most `delay` entries. -/
def appendDelivered (delay : Nat) (delivered : List Nat) (size : Nat) : List Nat :=
  let l := delivered ++ [size]
  l.drop (l.length - delay)

/-- What the allocation reads of one coding program (R44, R48 to R51). -/
structure Coder where
  program : Program
  slot : Fin 4
  takeNumber : Word
  sequence : Word
  demand : Nat
  min : Nat
  max : Nat
  room : Nat
  deriving DecidableEq, Repr

/-- R50: the upper bound. -/
def Coder.hi (c : Coder) : Nat := Nat.max 1 (Nat.min c.max (c.room / Config.payloadBytes))

/-- R51: the lower bound. -/
def Coder.lo (c : Coder) : Nat := Nat.min c.min c.hi

/-- R50, R51: BUFFER_TIGHT. -/
def Coder.tight (c : Coder) : Bool := decide (Nat.min c.max (c.room / Config.payloadBytes) = 0 ∨ c.hi < c.min)

/-- R47: the pool. -/
def poolOf (cpi reserve debts holds : Nat) : Nat := cpi - reserve - debts - holds

/-- A coding program in the water-fill (R53): its lower bound after scaling, its headroom, its demand and its extra. -/
structure Share where
  coder : Coder
  lo : Nat
  headroom : Nat
  extra : Nat
  pinned : Bool
  deriving DecidableEq, Repr

/-- R52: a scaled lower bound. -/
def scaledLo (pool count total lo : Nat) : Nat := 1 + (lo - 1) * (pool - count) / (total - count)

/-- R52, R53: the shares before the first pass, and whether the minima were scaled. -/
def initialShares (pool : Nat) (coders : List Coder) : List Share × Bool :=
  let total := (coders.map Coder.lo).sum
  let share (c : Coder) (lo : Nat) : Share :=
    { coder := c, lo := lo, headroom := c.hi - lo, extra := 0, pinned := false }
  if pool < total then
    (coders.map fun c => share c (scaledLo pool coders.length total c.lo), true)
  else (coders.map fun c => share c c.lo, false)

/-- R53: the headrooms of the pinned programs. -/
def pinnedHeadroom (shares : List Share) : Nat := ((shares.filter Share.pinned).map Share.headroom).sum

/-- R53: the demand of the programs not yet pinned. -/
def openDemand (shares : List Share) : Nat :=
  ((shares.filter fun s => !s.pinned).map fun s => s.coder.demand).sum

/-- R53: one program in one pass. An extra above the headroom pins the program at its headroom. -/
def Share.pour (rest demand : Nat) (s : Share) : Share :=
  if s.pinned then s
  else
    let extra := rest * s.coder.demand / demand
    if s.headroom < extra then { s with extra := s.headroom, pinned := true } else { s with extra := extra }

/-- R53: one pass over all programs. -/
def pourAll (remainder : Nat) (shares : List Share) : List Share :=
  shares.map (Share.pour (remainder - pinnedHeadroom shares) (openDemand shares))

/-- R53, R54: at most `fuel` passes; a pass that pins no program ends the water-fill. Clipping the fourth pass's extras to
their headrooms is what pinning does to them. -/
def waterFill (remainder : Nat) : Nat → List Share → List Share
  | 0, shares => shares
  | fuel + 1, shares =>
    let next := pourAll remainder shares
    if (next.filter Share.pinned).length = (shares.filter Share.pinned).length then next
    else waterFill remainder fuel next

/-- R55: one more cell for the share of program `p`, if it is below its headroom and a cell is left. -/
def giveCell (p : Program) : List Share → Nat → List Share × Nat
  | [], left => ([], left)
  | s :: rest, left =>
    if s.coder.program = p then
      if s.extra < s.headroom ∧ 0 < left then ({ s with extra := s.extra + 1 } :: rest, left - 1) else (s :: rest, left)
    else
      let (rest', left') := giveCell p rest left
      (s :: rest', left')

/-- R55: one round of 16 visits, from the rotation pointer upward and round. -/
def visitOrder (rotation : Fin 16) : List Program := programs.map fun i => rotation + i

/-- R55: the visits of one round. -/
def handRound (order : List Program) (shares : List Share) (left : Nat) : List Share × Nat :=
  order.foldl (fun acc p => giveCell p acc.1 acc.2) (shares, left)

/-- R55: rounds until no cell is left or a whole round gives none; `fuel` bounds the rounds by the leftover. -/
def handOut (order : List Program) : Nat → List Share → Nat → List Share × Nat
  | 0, shares, left => (shares, left)
  | fuel + 1, shares, left =>
    let (shares', left') := handRound order shares left
    if left' = left then (shares', left') else handOut order fuel shares' left'

/-- The extras a list of shares holds. -/
def extras (shares : List Share) : Nat := (shares.map Share.extra).sum

/-- R52 to R55: the final shares, the spare pool seed and MINIMA_SCALED. -/
def divide (pool : Nat) (rotation : Fin 16) (coders : List Coder) : List Share × Nat × Bool :=
  let (shares, scaled) := initialShares pool coders
  let remainder := pool - (shares.map Share.lo).sum
  let filled := waterFill remainder 4 shares
  let leftover := remainder - extras filled
  let (final, seed) := handOut (visitOrder rotation) leftover filled leftover
  (final, seed, scaled)

/-- R56: the grant of a final share. -/
def Share.grant (s : Share) : Grant :=
  { program := s.coder.program, slot := s.coder.slot, takeNumber := s.coder.takeNumber, sequence := s.coder.sequence
    budget := s.lo + s.extra, room := s.coder.room, tight := s.coder.tight, pinned := s.pinned }

/-- R47 to R56: the results of an allocation. -/
def allocationOf (interval : Word) (cpi reserve debts : Nat) (rotation : Fin 16) (coders : List Coder) (holds : List Hold)
    (primed : List Program) : Allocation :=
  let pool := poolOf cpi reserve debts holds.length
  let (shares, seed, scaled) := divide pool rotation coders
  { interval := interval, pool := pool, reserve := reserve, grants := shares.map Share.grant, holds := holds
    primed := primed, seed := seed, scaled := scaled }

end Sys2Proof.Machine
end

