-- ==== Sys2Proof/Machine/Flags.lean ====
section
/-! DEFINITION. The words whose bits the host reads: STATUS, KEY_SELECT, KEY_CHECK and the other registers (R185, R186),
and the flags of a report's header and sections (11.2). -/

namespace Sys2Proof.Machine

/-- Device state codes (R186). -/
def deviceCode : DeviceState → Nat
  | .idle => 0
  | .starting => 1
  | .running => 2
  | .draining => 3
  | .halting => 4
  | .testing => 5

/-- R186: bits 20..19. In STARTING, HALTING and TESTING the device state names the command, and R186 gives the field no
value: that it is 0 then is the model's DESIGN CHOICE (log 43). -/
def inFlightCode : Option CommandName → Nat
  | some .loadFilters => 1
  | some .reloadRegions => 2
  | some .probe => 3
  | _ => 0

/-- R186: the completion code of a last command and its result; 0 for a pair the table does not list. -/
def completionCode : Option CommandName → CmdResult → Nat
  | none, .badCommand => 1
  | some .start, .ok => 2
  | some .start, .badConfig => 3
  | some .start, .directoryAccess => 4
  | some .start, .tableInvalid => 5
  | some .start, .wrongState => 6
  | some .stop, .ok => 7
  | some .stop, .wrongState => 8
  | some .halt, .ok => 9
  | some .halt, .wrongState => 10
  | some .loadFilters, .ok => 11
  | some .loadFilters, .tableInvalid => 12
  | some .loadFilters, .tableAccess => 13
  | some .loadFilters, .wrongState => 14
  | some .reloadRegions, .ok => 15
  | some .reloadRegions, .tableInvalid => 16
  | some .reloadRegions, .tableAccess => 17
  | some .reloadRegions, .wrongState => 18
  | some .testPages, .ok => 19
  | some .testPages, .interrupted => 20
  | some .testPages, .directoryAccess => 21
  | some .testPages, .badOperand => 22
  | some .testPages, .wrongState => 23
  | some .probe, .ok => 24
  | some .probe, .noTable => 25
  | some .probe, .directoryAccess => 26
  | some .probe, .wrongState => 27
  | some .reset, .ok => 28
  | _, _ => 0

/-- Key result codes (R186). -/
def keyResultCode : KeyResult → Nat
  | .none => 0
  | .loaded => 1
  | .erased => 2
  | .refusedActive => 3
  | .badOperation => 4

/-- R186: the STATUS word. -/
def statusWord (s : State) : Word :=
  BitVec.ofNat 32
    (s.timer.number.toNat % 65536
      + deviceCode s.control.device * 2 ^ 16
      + inFlightCode s.control.inFlight * 2 ^ 19
      + completionCode s.control.last s.control.result * 2 ^ 21
      + boolNat s.control.ignored * 2 ^ 26
      + boolNat s.keys.busy * 2 ^ 27
      + boolNat s.keys.ignored * 2 ^ 28
      + keyResultCode s.keys.result * 2 ^ 29)

/-- Parity bit of the key registers (R185). -/
def parityBit : Parity → Nat
  | .even => 0
  | .odd => 1

/-- Operation codes of KEY_SELECT (R185). -/
def operationCode : KeyOperation → Nat
  | .none => 0
  | .load => 1
  | .erase => 2

/-- Slot state codes of KEY_CHECK (R185). -/
def slotStateCode : SlotState → Nat
  | .empty => 0
  | .installing => 1
  | .loaded => 2

/-- R96, R185: a read of KEY_SELECT returns the selection and the data index. That bits 31..10, which R185 does not name,
read 0 is the model's DESIGN CHOICE (log 36). -/
def keySelectWord (k : Keys) : Word :=
  BitVec.ofNat 32
    (k.selProgram.val + parityBit k.selParity * 2 ^ 4 + operationCode k.selOperation * 2 ^ 5 + k.dataIndex.toNat * 2 ^ 8)

/-- R185: the check holding as KEY_CHECK shows it. -/
def holdingWord (h : Holding) : Word :=
  BitVec.ofNat 32
    (h.check.toNat + h.program.val * 2 ^ 24 + parityBit h.parity * 2 ^ 28 + slotStateCode h.state * 2 ^ 29
      + boolNat h.stale * 2 ^ 31)

/-- 11.4: the value a read of the register window gives; none where the window has no register. A read of KEY_CHECK also
has the effect of its command (R101). -/
def readRegister (s : State) (offset : Nat) : Option Word :=
  match offset with
  | 0x00 => some 0
  | 0x04 => some (statusWord s)
  | 0x08 => some (s.control.directory.extractLsb' 0 32)
  | 0x0C => some (s.control.directory.extractLsb' 32 32)
  | 0x10 => some (s.control.events.setWidth 32)
  | 0x14 => some (s.control.enable.setWidth 32)
  | 0x18 => some (keySelectWord s.keys)
  | 0x1C => some 0
  | 0x20 => some (holdingWord s.keys.holding)
  | _ => none

/-- The word with bit `i` set when `b` holds. -/
def flagBit (b : Bool) (i : Nat) : Nat := boolNat b * 2 ^ i

/-- 11.2: the flags of a section, bits 0 to 12 in order. -/
def sectionFlags (n : Notes) (tight pinned starved sideFault cue switchHeld shortfall : Bool) : BitVec 16 :=
  BitVec.ofNat 16
    (flagBit n.configClamped 0 + flagBit n.entryUnreadable 1 + flagBit n.statusUnwritten 2 + flagBit tight 3
      + flagBit pinned 4 + flagBit starved 5 + flagBit n.heldFault 6 + flagBit n.faultRecordLost 7
      + flagBit n.abandonWriteFault 8 + flagBit (n.sideFault || sideFault) 9 + flagBit cue 10 + flagBit switchHeld 11
      + flagBit shortfall 12)

/-- 11.2: the device flags of a report's header, bits 0 to 3. -/
def headerFlags (minimaScaled missed storeError lineShortfall : Bool) : Byte :=
  BitVec.ofNat 8
    (flagBit minimaScaled 0 + flagBit missed 1 + flagBit storeError 2 + flagBit lineShortfall 3)

/-- Two sets of notes joined. -/
def Notes.join (a b : Notes) : Notes :=
  { configClamped := a.configClamped || b.configClamped
    entryUnreadable := a.entryUnreadable || b.entryUnreadable
    statusUnwritten := a.statusUnwritten || b.statusUnwritten
    heldFault := a.heldFault || b.heldFault
    faultRecordLost := a.faultRecordLost || b.faultRecordLost
    abandonWriteFault := a.abandonWriteFault || b.abandonWriteFault
    sideFault := a.sideFault || b.sideFault }

end Sys2Proof.Machine
end

