-- ==== Sys2Proof/Machine/Operands.lean ====
section
/-! DEFINITION. The records of host memory (11_formats_and_registers.md, 11.2): how the device reads each field and
which bytes it writes. -/

namespace Sys2Proof.Machine

/-! ### Records the device reads -/

/-- A nonzero address that is a multiple of 8 (R4, R18, R173). -/
def alignedAddress (a : Long) : Bool := a != 0 && a.toNat % 8 == 0

/-- The program number of a byte that R173 has checked to be 0..15. -/
def programOf (n : Nat) : Program := Fin.ofNat 16 n

/-- The directory's settings (11.2, Directory). -/
def readSettings (directory : Long) (bs : List Byte) : Settings :=
  { directory := directory
    programTable := BitVec.ofNat 64 (leNat bs 0x00 8)
    codeTable := BitVec.ofNat 64 (leNat bs 0x08 8)
    filterTable := BitVec.ofNat 64 (leNat bs 0x10 8)
    regionTable := BitVec.ofNat 64 (leNat bs 0x18 8)
    reportBase := BitVec.ofNat 64 (leNat bs 0x20 8)
    period := leNat bs 0x28 4
    cpi := leNat bs 0x2C 2
    sMax := leNat bs 0x2E 2
    kfKey := leNat bs 0x30 1
    kfPred := leNat bs 0x31 1
    kfBi := leNat bs 0x32 1
    deadZone := leNat bs 0x33 1
    reportSlots := leNat bs 0x34 2
    firstProgram := programOf (leNat bs 0x36 1)
    lastProgram := programOf (leNat bs 0x37 1) }

/-- R173 step 3 with the ranges of R42 and R67. -/
def settingsValid (bs : List Byte) (s : Settings) : Bool :=
  decide (10000 ≤ s.period ∧ s.period ≤ 100000)
    && decide (256 ≤ s.cpi ∧ s.cpi ≤ 8192)
    && decide (s.sMax = 0 ∨ 6 ≤ s.sMax ∧ s.sMax ≤ s.cpi / 4)
    && decide (1 ≤ s.kfKey ∧ s.kfKey ≤ 32)
    && decide (1 ≤ s.kfPred ∧ s.kfPred ≤ 32)
    && decide (1 ≤ s.kfBi ∧ s.kfBi ≤ 32)
    && decide (s.deadZone ≤ 7)
    && alignedAddress s.reportBase
    && decide (4 ≤ s.reportSlots ∧ s.reportSlots ≤ 1024)
    && decide (leNat bs 0x36 1 ≤ 15)
    && decide (leNat bs 0x37 1 ≤ 15)
    && alignedAddress s.programTable
    && alignedAddress s.codeTable
    && alignedAddress s.filterTable
    && alignedAddress s.regionTable

/-- Rights codes (11.2, Region table); none for a value that is no code. -/
def rightsOf (n : Nat) : Option Rights :=
  match n with
  | 0 => some .none
  | 1 => some .read
  | 2 => some .readWrite
  | _ => none

/-- R162: the entry at an offset, or none if it is valid by its length and fails a check. -/
def readRegion (bs : List Byte) (off : Nat) : Option Region :=
  let base := leNat bs off 8
  let length := leNat bs (off + 8) 8
  let key := byteAt bs (off + 0x11)
  if length = 0 then
    some { base := BitVec.ofNat 64 base, length := 0, rights := .none, key := key }
  else
    match rightsOf (leNat bs (off + 0x10) 1) with
    | none => none
    | some rights =>
      if key.toNat ≤ 15 ∧ base + length ≤ 2 ^ 64 then
        some { base := BitVec.ofNat 64 base, length := BitVec.ofNat 64 length, rights := rights, key := key }
      else none

/-- R162: the eight entries, or none if one fails its check. -/
def readRegions (bs : List Byte) : Option (List Region) :=
  (List.range 8).mapM fun i => readRegion bs (24 * i)

/-- R67: the 130 entries, or none if a length is not 1..16. -/
def readCodeTable (bs : List Byte) : Option (List CodeEntry) :=
  (List.range 130).mapM fun i =>
    let length := leNat bs (4 * i) 1
    if 1 ≤ length ∧ length ≤ 16 then
      some { length := length, value := BitVec.ofNat 16 (leNat bs (4 * i + 2) 2) }
    else none

/-- Action codes (11.2, Filter table). -/
def actionOf (n : Nat) : Option FilterAction :=
  match n with
  | 0 => some .carry
  | 1 => some .drop
  | 2 => some .cue
  | _ => none

/-- R137: flexible filter `f`; an enabled filter with an action or a compare length out of range fails, a disabled
filter's fields are not checked. -/
def readFilter (bs : List Byte) (f : Nat) : Option Filter :=
  let off := 0x10 + 80 * f
  let enabled := flagAt bs off
  let compare := leNat bs (off + 2) 1
  let mask := BitVec.ofNat 64 (leNat bs (off + 8) 8)
  let pattern := (List.range 64).map fun i => byteAt bs (off + 0x10 + i)
  match actionOf (leNat bs (off + 1) 1) with
  | some action =>
    if enabled ∧ ¬ (1 ≤ compare ∧ compare ≤ 64) then none
    else some { enabled := enabled, action := action, compare := compare, mask := mask, pattern := pattern }
  | none =>
    if enabled then none
    else some { enabled := false, action := .drop, compare := compare, mask := mask, pattern := pattern }

/-- R137: the filter table, or none if it fails a check. -/
def readFilterTable (bs : List Byte) : Option FilterTable :=
  match (List.range 6).mapM (readFilter bs) with
  | none => none
  | some filters =>
    if leNat bs 1 1 ≤ 1 then
      some { broadcast := flagAt bs 0, defaultCarry := leNat bs 1 1 == 0, groups := BitVec.ofNat 64 (leNat bs 8 8)
             filters := filters }
    else none

/-- Desired mode codes; any other value reads OFF (R3 step 1). -/
def modeOf (n : Nat) : DesiredMode :=
  match n with
  | 1 => .run
  | 2 => .abort
  | _ => .off

/-- Parity target codes; any other value reads NONE (R3 step 8). -/
def targetOf (n : Nat) : Option Parity :=
  match n with
  | 1 => some .even
  | 2 => some .odd
  | _ => none

/-- R3 steps 2 and 3. -/
def clampWeight (w : Nat) : Nat := if w = 0 then 1 else if 16 < w then 16 else w

/-- R3 steps 5 and 6. -/
def clampMax (cpi max : Nat) : Nat := min (if max = 0 then 1 else max) cpi

/-- R3 steps 4 and 7, against the clamped maximum. -/
def clampMin (max min : Nat) : Nat := Nat.min (if min = 0 then 1 else min) max

/-- R2, R3: the live fields of a program entry after clamping. -/
def readLive (cpi : Nat) (bs : List Byte) : Live :=
  let max := clampMax cpi (leNat bs 6 2)
  { mode := modeOf (leNat bs 0 1)
    weight := clampWeight (leNat bs 1 1)
    min := clampMin max (leNat bs 4 2)
    max := max
    target := targetOf (leNat bs 3 1)
    interval := BitVec.ofNat 32 (leNat bs 8 4)
    cueClear := leNat bs 2 1 != 0 }

/-- R3: some step changes a value. -/
def liveClamped (cpi : Nat) (bs : List Byte) : Bool :=
  let l := readLive cpi bs
  decide (2 < leNat bs 0 1) || l.weight != leNat bs 1 1 || l.min != leNat bs 4 2 || l.max != leNat bs 6 2
    || decide (2 < leNat bs 3 1) || decide (1 < leNat bs 2 1)

/-- R4: the fixed part (bytes 0x10..0x3F of the entry, offsets counted from 0x10). -/
def readFixed (bs : List Byte) : Fixed :=
  { chainStart := BitVec.ofNat 64 (leNat bs 0x00 8)
    faultArea := BitVec.ofNat 64 (leNat bs 0x08 8)
    bufferSize := leNat bs 0x10 4
    accessKey := byteAt bs 0x14
    depth := leNat bs 0x15 1
    delay := leNat bs 0x16 1
    scrambled := leNat bs 0x17 1 == 1
    tolerant := leNat bs 0x18 1 == 1 }

/-- R4: the first check that fails gives the code. -/
def fixedRefusal (bs : List Byte) : StartRefusal :=
  let f := readFixed bs
  if 15 < f.accessKey.toNat then .accessKey
  else if !alignedAddress f.chainStart then .chainAddress
  else if ¬ (1 ≤ f.depth ∧ f.depth ≤ 4) then .depth
  else if ¬ (65536 ≤ f.bufferSize ∧ f.bufferSize ≤ 8388608) then .bufferSize
  else if ¬ (1 ≤ f.delay ∧ f.delay ≤ 8) then .decodeDelay
  else if 1 < leNat bs 0x17 1 then .scrambleMode
  else if 1 < leNat bs 0x18 1 then .faultMode
  else if !alignedAddress f.faultArea then .faultArea
  else .none

/-- The picture record's host part (11.2, Picture record). -/
def readRecord (bs : List Byte) : RecordFields :=
  { sequence := BitVec.ofNat 32 (leNat bs 0x04 4)
    link := BitVec.ofNat 64 (leNat bs 0x08 8)
    kind := leNat bs 0x01 1
    sliceCount := leNat bs 0x02 1
    sideCount := leNat bs 0x03 1
    sourceSize := leNat bs 0x10 4
    sliceTable := BitVec.ofNat 64 (leNat bs 0x18 8)
    sliceBase := BitVec.ofNat 64 (leNat bs 0x20 8)
    sideTable := BitVec.ofNat 64 (leNat bs 0x28 8) }

/-- R20: kind, slice count, side count and S_src in range. -/
def recordValid (r : RecordFields) : Bool :=
  decide (r.kind ≤ 2) && decide (1 ≤ r.sliceCount ∧ r.sliceCount ≤ 72) && decide (r.sideCount ≤ 8)
    && decide (1 ≤ r.sourceSize ∧ r.sourceSize ≤ 1048576)

/-- Kind codes (11.2); BI for the last valid code. -/
def kindOf (n : Nat) : Kind :=
  match n with
  | 0 => .key
  | 1 => .pred
  | _ => .bi

/-- R25: the descriptors in table order. -/
def readSlices (count : Nat) (bs : List Byte) : List SliceDesc :=
  (List.range count).map fun i =>
    { offset := leNat bs (16 * i) 4, length := leNat bs (16 * i + 4) 4, qIn := leNat bs (16 * i + 8) 1 }

/-- R25: q_in 1..62 and length 5 or more. -/
def sliceValid (d : SliceDesc) : Bool := decide (1 ≤ d.qIn ∧ d.qIn ≤ 62) && decide (5 ≤ d.length)

/-- 7.1: the side entries in table order. -/
def readSides (count : Nat) (bs : List Byte) : List SideEntry :=
  (List.range count).map fun i =>
    { address := BitVec.ofNat 64 (leNat bs (16 * i) 8), length := leNat bs (16 * i + 8) 2
      target := leNat bs (16 * i + 10) 1, group := leNat bs (16 * i + 11) 1 }

/-! ### Codes the device writes -/

/-- Outcome codes (11.2). -/
def outcomeCode : Outcome → Nat
  | .ok => 0
  | .substituted => 1
  | .discardedOverrun => 2
  | .bufferHold => 3
  | .late => 4
  | .malformed => 5
  | .keyMissing => 6
  | .storeFull => 7
  | .faultTolerated => 8
  | .abandoned => 9

/-- 0xFF for no outcome (11.2). -/
def lastOutcomeCode (o : Option Outcome) : Nat := o.elim 0xFF outcomeCode

/-- Disposition codes (11.2). -/
def dispositionCode : Disposition → Nat
  | .none => 0
  | .carried => 1
  | .carriedCue => 2
  | .droppedAddress => 3
  | .droppedFilter => 4
  | .droppedLoading => 5
  | .droppedQueueFull => 6
  | .droppedNoCapacity => 7

/-- Program state codes (11.2). -/
def programStateCode : ProgramState → Nat
  | .off => 0
  | .priming => 1
  | .running => 2
  | .draining => 3
  | .held => 4

/-- Active parity codes (11.2). -/
def parityCode : Option Parity → Nat
  | none => 0
  | some .even => 1
  | some .odd => 2

/-- Start-refused codes (R4). -/
def refusalCode : StartRefusal → Nat
  | .none => 0
  | .entryUnreadable => 1
  | .accessKey => 2
  | .chainAddress => 3
  | .depth => 4
  | .bufferSize => 5
  | .decodeDelay => 6
  | .scrambleMode => 7
  | .faultMode => 8
  | .faultArea => 9

/-- Fault cause codes (11.2). -/
def causeCode : FaultCause → Nat
  | .recordRead => 1
  | .linkInvalid => 2
  | .recordWrite => 3
  | .sliceTable => 4
  | .sliceData => 5

/-- Access result codes (11.2). -/
def accessResultCode : Option AccessResult → Nat
  | none => 0
  | some .noRegion => 1
  | some .keyMismatch => 2
  | some .rights => 3
  | some .bus => 4

/-- Access kind codes (11.2). -/
def accessKindCode : AccessKind → Nat
  | .read => 0
  | .write => 1

/-- Kind codes of the picture header and record (11.2, 11.3). -/
def kindCode : Kind → Nat
  | .key => 0
  | .pred => 1
  | .bi => 2

/-- Record states the device writes (11.2). -/
def takenCode : Byte := 2
/-- DONE. -/
def doneCode : Byte := 3
/-- FAULTED. -/
def faultedCode : Byte := 4

/-! ### Extents the device writes -/

/-- The eight disposition places; places past the side count are written "none" (R131). -/
def dispositionBytes (sides : List SlotSide) : List Byte :=
  (List.range 8).map fun i =>
    match sides[i]? with
    | some s => BitVec.ofNat 8 (dispositionCode s.disposition)
    | none => 0

/-- The outcome write, bytes 0x30..0x47 of the record (R22, R184). -/
def outcomeBytes (outcome : Outcome) (pass size cells meanQ : Nat) (interval : Word) (sides : List SlotSide) : List Byte :=
  leBytes 1 (outcomeCode outcome) ++ leBytes 1 pass ++ leBytes 1 meanQ ++ zeros 1 ++ leBytes 4 size ++ leBytes 2 cells
    ++ zeros 2 ++ leBytes 4 interval.toNat ++ dispositionBytes sides

/-- The status part, bytes 0x40..0x7F of the entry (R6, R184). -/
def statusBytes (c : ProgramCtx) (debt delivered : Nat) (r : ParityRecord) (latch : Bool) : List Byte :=
  leBytes 1 (programStateCode c.state) ++ leBytes 1 c.window.count ++ leBytes 1 debt ++ leBytes 1 (parityCode r.active)
    ++ leBytes 1 (boolNat r.switchHeld) ++ leBytes 1 (boolNat latch) ++ leBytes 1 (lastOutcomeCode c.lastOutcome)
    ++ leBytes 1 (refusalCode c.refused) ++ leBytes 8 c.nextRecord.toNat ++ leBytes 4 delivered
    ++ leBytes 4 (if c.lastOutcome.isNone then 0 else c.lastInterval.toNat) ++ zeros 40

/-- One section of a report (11.2, Report record). -/
def sectionBytes (f : SectionFigures) : List Byte :=
  leBytes 1 f.program.val ++ leBytes 1 (programStateCode f.state) ++ leBytes 1 (lastOutcomeCode f.outcome)
    ++ leBytes 1 f.pass ++ leBytes 2 f.budget ++ leBytes 2 f.cells ++ leBytes 1 f.meanQ ++ leBytes 1 f.debt
    ++ leBytes 2 f.flags.toNat ++ leBytes 4 f.delivered ++ zeros 16

/-- The 576 bytes of a report with the held skipped count (R180, R181; 11.2). -/
def reportBytes (f : Figures) (skipped : Nat) : List Byte :=
  exactly 576
    (leBytes 4 f.interval.toNat ++ leBytes 4 (min f.nulls 4294967295) ++ leBytes 2 f.pool ++ leBytes 2 f.reserve
      ++ leBytes 2 f.spare ++ leBytes 2 f.shortfall ++ leBytes 2 f.correctable ++ leBytes 2 f.freePages ++ leBytes 2 skipped
      ++ leBytes 1 f.sections.length ++ [f.flags] ++ zeros 8 ++ f.sections.flatMap sectionBytes)

/-- The 64 bytes of a fault record (R167; 11.2). -/
def faultRecordBytes (r : FaultRequest) : List Byte :=
  exactly 64
    (leBytes 1 (causeCode r.info.cause) ++ leBytes 1 (accessResultCode r.info.result)
      ++ leBytes 1 (accessKindCode r.info.kind) ++ [r.info.region] ++ leBytes 4 r.interval.toNat
      ++ leBytes 8 r.info.record.toNat ++ leBytes 8 r.info.addr.toNat ++ leBytes 4 r.info.length
      ++ leBytes 4 r.info.sequence.toNat ++ leBytes 1 r.info.pass ++ leBytes 1 r.count ++ zeros 2
      ++ (List.range 4).flatMap fun i => leBytes 4 ((r.sequences.getD i 0).toNat))

/-- The test result, bytes 0x54..0x5B of the directory (R126, 11.2). -/
def testBytes (tested usable retired next : Nat) : List Byte :=
  leBytes 2 tested ++ leBytes 2 usable ++ leBytes 2 retired ++ leBytes 2 next

end Sys2Proof.Machine
end

