-- ==== Sys2Proof/Machine/Coding.lean ====
section
/-! DEFINITION. The picture formats and the arithmetic of a recoding pass: the parse of a slice (02, 2.2), the
requantizer, the entropy coder and the quantizers of the passes (04, 4.3 and 4.4). -/

namespace Sys2Proof.Machine

/-- One entry of a block: scan position and signed level (2.2). -/
abbrev Coeff := Nat × Int

/-! ### The parse (R26, R27) -/

/-- R27: the entries of one block: positions rise strictly and are at most 63, magnitudes are 1..2047. -/
def parseEntries : Nat → Option Nat → List Byte → Option (List Coeff × List Byte)
  | 0, _, bs => some ([], bs)
  | n + 1, prev, p :: l0 :: l1 :: bs =>
    let position := p.toNat
    let level := (BitVec.ofNat 16 (l0.toNat + 256 * l1.toNat)).toInt
    if 63 < position ∨ prev.any (fun q => decide (position ≤ q)) ∨ level = 0 ∨ 2047 < level.natAbs then none
    else
      match parseEntries n (some position) bs with
      | none => none
      | some (entries, rest) => some ((position, level) :: entries, rest)
  | _ + 1, _, _ => none

/-- R27: the blocks of a slice, as many as its block count. -/
def parseBlocks : Nat → List Byte → Option (List (List Coeff) × List Byte)
  | 0, bs => some ([], bs)
  | _ + 1, [] => none
  | n + 1, c :: bs =>
    if 64 < c.toNat then none
    else
      match parseEntries c.toNat none bs with
      | none => none
      | some (entries, bs') =>
        match parseBlocks n bs' with
        | none => none
        | some (blocks, rest) => some (entries :: blocks, rest)

/-- R26, R27: the blocks of a slice of exactly the descriptor's length, none where it is malformed. -/
def parseSlice (d : SliceDesc) (bs : List Byte) : Option (List (List Coeff)) :=
  match exactly d.length bs with
  | marker :: q :: count :: zero :: body =>
    if marker = 0xE1 ∧ q.toNat = d.qIn ∧ count ≠ 0 ∧ zero = 0 then
      match parseBlocks count.toNat body with
      | some (blocks, []) => some blocks
      | _ => none
    else none
  | _ => none

/-! ### The requantizer (R73) -/

/-- R73: the magnitude of a requantized level. -/
def requantMagnitude (deadZone qIn qOut magnitude : Nat) : Nat :=
  (8 * magnitude * qIn + deadZone * qOut) / (8 * qOut)

/-- R73: the requantized level keeps the sign. -/
def requantize (deadZone qIn qOut : Nat) (level : Int) : Int :=
  let m : Int := requantMagnitude deadZone qIn qOut level.natAbs
  if level < 0 then -m else m

/-- R72 step 3: the entries of a block that are kept: below the cutoff and not requantized to 0. -/
def keptEntries (deadZone qIn qOut cutoff : Nat) (block : List Coeff) : List Coeff :=
  ((block.filter fun e => decide (e.1 < cutoff)).map fun e => (e.1, requantize deadZone qIn qOut e.2)).filter
    fun e => e.2 != 0

/-! ### The entropy coder (R75) -/

/-- The low `n` bits of a value, most significant first. -/
def bitsOf (n v : Nat) : List Bool := (List.range n).map fun i => v.testBit (n - 1 - i)

/-- The codeword of a table entry (R67). -/
def codeword (table : List CodeEntry) (index : Nat) : List Bool :=
  let e := table.getD index { length := 1, value := 0 }
  bitsOf e.length e.value.toNat

/-- R75: the code of one entry with its run. -/
def entryCode (table : List CodeEntry) (run : Nat) (level : Int) : List Bool :=
  let magnitude := level.natAbs
  if run ≤ 15 ∧ magnitude ≤ 8 then codeword table (run * 8 + (magnitude - 1)) ++ [decide (level < 0)]
  else codeword table 128 ++ bitsOf 6 run ++ bitsOf 12 (BitVec.ofInt 12 level).toNat

/-- R75: the codes of a block's kept entries, runs counted over kept entries, `next` being the position after the last
one, and the end-of-block code. -/
def blockCodes (table : List CodeEntry) (next : Nat) : List Coeff → List (List Bool)
  | [] => [codeword table 129]
  | (position, level) :: rest => entryCode table (position - next) level :: blockCodes table (position + 1) rest

/-- R72: the codes of a slice in order. -/
def sliceCodes (table : List CodeEntry) (deadZone qIn qOut cutoff : Nat) (blocks : List (List Coeff)) : List (List Bool) :=
  blocks.flatMap fun b => blockCodes table 0 (keptEntries deadZone qIn qOut cutoff b)

/-- R79: the first limit that a running size exceeds, in the order of their reasons. -/
def limitExceeded (limits : List (Nat × StopReason)) (size : Nat) : Option StopReason :=
  (limits.find? fun l => decide (l.1 < size)).map Prod.snd

/-- R79: codes written one after another; after each, the running size `base + ceil(bits / 8)` is compared with the
limits. -/
def emitCodes (limits : List (Nat × StopReason)) (base : Nat) : List Bool → List (List Bool) → Except StopReason (List Bool)
  | bits, [] => .ok bits
  | bits, code :: rest =>
    let bits' := bits ++ code
    match limitExceeded limits (base + ceilDiv bits'.length 8) with
    | some reason => .error reason
    | none => emitCodes limits base bits' rest

/-- Eight bits, most significant first. -/
def byteOfBits (b : List Bool) : Byte := BitVec.ofNat 8 (b.foldl (fun acc x => 2 * acc + boolNat x) 0)

/-- R75: a slice's bits as bytes, padded with zero bits. -/
def packBits : List Bool → List Byte
  | [] => []
  | b7 :: b6 :: b5 :: b4 :: b3 :: b2 :: b1 :: b0 :: rest => byteOfBits [b7, b6, b5, b4, b3, b2, b1, b0] :: packBits rest
  | short => [byteOfBits (short ++ List.replicate (8 - short.length) false)]

/-- R74: the output slice header. -/
def sliceHeader (qOut blocks index : Nat) : List Byte :=
  [0xC5, BitVec.ofNat 8 qOut, BitVec.ofNat 8 blocks, BitVec.ofNat 8 index]

/-- R74: the output picture header. -/
def pictureHeader (sequence : Word) (kind slices meanQ pass : Nat) : List Byte :=
  [0x5A, 0x17] ++ beBytes 2 (sequence.toNat % 65536) ++ leBytes 1 kind ++ leBytes 1 slices ++ leBytes 1 meanQ ++ leBytes 1 pass

/-- R72 steps 2 to 4: the bytes of one coded slice, or the reason the pass stops in it. `size` is the bytes counted before
it. -/
def codeSlice (table : List CodeEntry) (deadZone cutoff : Nat) (limits : List (Nat × StopReason)) (size index : Nat)
    (d : SliceDesc) (qOut : Nat) (blocks : List (List Coeff)) : Except StopReason (List Byte) :=
  match emitCodes limits (size + 4) [] (sliceCodes table deadZone d.qIn qOut cutoff blocks) with
  | .error reason => .error reason
  | .ok bits => .ok (sliceHeader qOut blocks.length index ++ packBits bits)

/-! ### Quantizers, cutoff and means -/

/-- R29, R87: a length-weighted ceiling of quantizers. -/
def weightedMean (slices : List SliceDesc) (quants : List Nat) : Nat :=
  ceilDiv ((List.zipWith (fun d q => d.length * q) slices quants).sum) ((slices.map SliceDesc.length).sum)

/-- R29: q_mean. -/
def qMeanOf (slices : List SliceDesc) : Nat := weightedMean slices (slices.map SliceDesc.qIn)

/-- R77: the quantizers of pass 1. -/
def pass1Quants (slices : List SliceDesc) (sourceSize budget : Nat) : List Nat :=
  let t := budget * Config.payloadBytes
  if sourceSize ≤ t then slices.map SliceDesc.qIn
  else slices.map fun d => Nat.min 62 (ceilDiv (d.qIn * ceilDiv (256 * sourceSize) t) 256)

/-- R78: a quantizer of pass 2. -/
def pass2Quant (m2 q1 : Nat) : Nat := Nat.min 62 (Nat.max (q1 + 1) (ceilDiv (q1 * m2) 256))

/-- R78: the quantizers of pass 2. -/
def pass2Quants (quants : List Nat) (b1 budget : Nat) : List Nat :=
  quants.map (pass2Quant (ceilDiv (256 * b1) (budget * Config.payloadBytes)))

/-- R78: the cutoff of pass 2. -/
def pass2Cutoff (b1 budget : Nat) : Nat := Nat.max 1 (64 * (budget * Config.payloadBytes) / b1)

/-- R72: the quantizers of the floor pass. -/
def floorQuants (slices : List SliceDesc) : List Nat := slices.map fun _ => 62

end Sys2Proof.Machine
end

