-- ==== Sys2Proof/Machine/Keys.lean ====
section
/-! DEFINITION. The key unit (05_control_words_and_scrambling.md): slots, the key window, check captures, parity records
and decisions, and the meanings of the key window's commands. -/

namespace Sys2Proof.Machine

/-! ### Slots and records -/

/-- The slot of a parity. -/
def KeyPair.slot (k : KeyPair) : Parity → KeySlot
  | .even => k.even
  | .odd => k.odd

/-- The pair with another slot. -/
def KeyPair.setSlot (k : KeyPair) (p : Parity) (x : KeySlot) : KeyPair :=
  match p with
  | .even => { k with even := x }
  | .odd => { k with odd := x }

/-- A slot of a program. -/
def Keys.slot (k : Keys) (p : Program) (q : Parity) : KeySlot := (k.slots.look p).slot q

/-- The unit with another slot. -/
def Keys.setSlot (k : Keys) (p : Program) (q : Parity) (x : KeySlot) : Keys :=
  { k with slots := k.slots.modify p fun pair => pair.setSlot q x }

/-- A slot's state (R93). -/
def KeySlot.state : KeySlot → SlotState
  | .empty => .empty
  | .installing => .installing
  | .loaded _ => .loaded

/-- R95: the slot is its program's active parity and the record is in force. -/
def Keys.isProtected (k : Keys) (p : Program) (q : Parity) : Bool :=
  let r := k.records.look p
  r.inForce && r.active == some q

/-- R94: a program starts. -/
def ParityRecord.started (scrambled : Bool) : ParityRecord :=
  { scrambled := scrambled, inForce := false, active := if scrambled then some .even else none, pending := none
    switchHeld := false }

/-- R94: a program becomes OFF. -/
def ParityRecord.offed (r : ParityRecord) : ParityRecord :=
  { r with inForce := false, pending := none, switchHeld := false }

/-- R103: a parity pair is handed. -/
def ParityRecord.handed (r : ParityRecord) (target : Parity) (n : Word) : ParityRecord :=
  if r.active = some target then { r with pending := none, switchHeld := false }
  else { r with pending := some (target, n), switchHeld := false }

/-- R104: a switch for line interval `n` is due at the decision for `m`. -/
def switchDue (m n : Word) : Bool := decide ((m - n).toNat < 2147483648)

/-- R105, R106: the parity decision for line interval `m`. -/
def ParityRecord.decision (r : ParityRecord) (slots : KeyPair) (m : Word) : ParityRecord :=
  let due := r.pending.any fun p => switchDue m p.2
  let ready := r.pending.any fun p => (slots.slot p.1).state == .loaded
  if due && ready then
    { r with inForce := true, active := r.pending.map Prod.fst, pending := none, switchHeld := false }
  else if r.inForce then
    { r with switchHeld := if due then true else r.switchHeld }
  else
    { r with inForce := slots.even.state != .installing, active := some .even
             switchHeld := if due then true else r.switchHeld }

/-- R105: the decisions of an allocation completion, for SCRAMBLED records of programs that are not OFF. -/
def Keys.decideParities (k : Keys) (programsOn : Program → Bool) (m : Word) : Keys :=
  { k with
    records := PerProgram.tabulate fun p =>
      let r := k.records.look p
      if r.scrambled && programsOn p then r.decision (k.slots.look p) m else r }

/-- R107: what a build of a SCRAMBLED program is answered: the active parity and its word, or none. -/
def Keys.buildKey (k : Keys) (p : Program) : Option (Parity × Long) :=
  let r := k.records.look p
  match r.inForce, r.active with
  | true, some q =>
    match k.slot p q with
    | .loaded word => some (q, word)
    | _ => none
  | _, _ => none

/-- R112: START's values. Slots and window keep theirs. -/
def Keys.started (k : Keys) : Keys := { k with records := PerProgram.fill ParityRecord.reset }

/-! ### The key window -/

/-- R96, R100: a KEY_SELECT write while KEY_BUSY is 1 is ignored and sets KEY_IGNORED; otherwise it sets the selection,
the data index, the staged half and KEY_IGNORED, and then does what its operation adds. -/
def Keys.select (k : Keys) (p : Program) (q : Parity) (op : KeyOperation) (result : KeyResult) : Keys :=
  if k.busy then { k with ignored := true }
  else
    { k with selProgram := p, selParity := q, selOperation := op, dataIndex := 0, staged := 0, ignored := false
             result := result }

/-- R97: ERASE acts at once unless the slot is protected. -/
def Keys.eraseSlot (k : Keys) (p : Program) (q : Parity) : Keys :=
  if k.busy then k.select p q .erase .erased
  else if k.isProtected p q then k.select p q .erase .refusedActive
  else (k.select p q .erase .erased).setSlot p q .empty

/-- R98: the word of a LOAD, high half written second. -/
def joinHalves (high low : Word) : Long := high ++ low

/-- R98: a KEY_DATA write. -/
def Keys.data (k : Keys) (half : Word) : Keys :=
  if k.busy || k.selOperation != .load || decide (2 ≤ k.dataIndex.toNat) then { k with ignored := true }
  else if k.dataIndex = 0 then { k with staged := half, dataIndex := 1 }
  else if k.isProtected k.selProgram k.selParity then
    { k with dataIndex := 2, staged := 0, result := .refusedActive }
  else
    { (k.setSlot k.selProgram k.selParity .installing) with
      dataIndex := 2, staged := 0, busy := true
      install := some { program := k.selProgram, parity := k.selParity, word := joinHalves half k.staged } }

/-- R99: the end of an install. -/
def Keys.installed (k : Keys) (i : Install) : Keys :=
  { (k.setSlot i.program i.parity (.loaded i.word)) with install := none, busy := false, result := .loaded }

/-- R101: a capture of the selected slot starts if none is in flight. -/
def Keys.startCapture (k : Keys) : Keys :=
  if k.capture.isSome then k
  else
    { k with capture := some { program := k.selProgram, parity := k.selParity
                               slot := k.slot k.selProgram k.selParity } }

/-- R102: the upper 24 bits of the permutation of 0 under a word. -/
def checkBits (word : Long) : BitVec 24 := (Config.cellPermutation word 0).extractLsb' 40 24

/-- R102: the holding a capture ends with. -/
def Capture.holding (c : Capture) : Holding :=
  { program := c.program, parity := c.parity, state := c.slot.state
    check := match c.slot with
      | .loaded word => checkBits word
      | _ => 0
    stale := false }

/-! ### Meanings -/

/-- KEY_SELECT with operation NONE (R96). -/
def execKeySelectNone (program : Program) (parity : Parity) (s : State) : Host.Outcome State Fault Refusal :=
  .next (s.setKeys (s.keys.select program parity .none .none))

/-- KEY_SELECT with operation LOAD (R96). -/
def execLoad (program : Program) (parity : Parity) (s : State) : Host.Outcome State Fault Refusal :=
  .next (s.setKeys (s.keys.select program parity .load .none))

/-- KEY_SELECT with operation ERASE (R96, R97). -/
def execErase (program : Program) (parity : Parity) (s : State) : Host.Outcome State Fault Refusal :=
  .next (s.setKeys (s.keys.eraseSlot program parity))

/-- KEY_SELECT with an unknown operation code (R96). -/
def execBadOperation (program : Program) (parity : Parity) (_code : BitVec 3) (s : State) :
    Host.Outcome State Fault Refusal :=
  .next (s.setKeys (s.keys.select program parity .none .badOperation))

/-- KEY_DATA (R98). -/
def execKeyData (half : Word) (s : State) : Host.Outcome State Fault Refusal :=
  .next (s.setKeys (s.keys.data half))

/-- The end of the install in flight (R99); without one nothing ends (log 3). -/
def execInstallEnd (s : State) : Host.Outcome State Fault Refusal :=
  match s.keys.install with
  | none => .next s
  | some i => .next ((s.setKeys (s.keys.installed i)).raise .keyDone)

/-- The end of the capture in flight (R102); without one nothing ends (log 3). -/
def execCaptureEnd (s : State) : Host.Outcome State Fault Refusal :=
  match s.keys.capture with
  | none => .next s
  | some c => .next (s.setKeys { s.keys with holding := c.holding, capture := none })

end Sys2Proof.Machine
end

