-- ==== Sys2Proof/Machine/Cells.lean ====
section
/-! DEFINITION. The 200-byte cell: its header, the cutting of a sequence into cells, the scrambling chain, hold cells and
null cells (R70, R110, R113 to R115; 11.3). -/

namespace Sys2Proof.Machine

/-- Cell kinds (11.3). -/
inductive CellKind where
  | picture | side | null
  deriving DecidableEq, Repr

/-- The fields of a cell header (R113). -/
structure CellHeader where
  kind : CellKind
  start : Bool
  scramble : Option Parity
  program : Program
  count : BitVec 4
  used : Nat
  interval : Word
  sequence : BitVec 16
  deriving DecidableEq, Repr

/-- Kind codes of byte 1, bits 7..6 (11.3). -/
def cellKindCode : CellKind → Nat
  | .picture => 0
  | .side => 1
  | .null => 2

/-- R113, 11.3: the eight header bytes. -/
def headerBytes (h : CellHeader) : List Byte :=
  [0xA6, BitVec.ofNat 8 (cellKindCode h.kind * 64 + boolNat h.start * 32 + parityCode h.scramble)
   , BitVec.ofNat 8 (h.program.val * 16 + h.count.toNat), BitVec.ofNat 8 h.used]
    ++ beBytes 2 (h.interval.toNat % 65536) ++ beBytes 2 h.sequence.toNat

/-- The cell of a header and its used payload bytes, filled with 0x00. -/
def cellOf (h : CellHeader) (payload : List Byte) : List Byte :=
  headerBytes h ++ exactly Config.payloadBytes payload

/-- R114: a sequence of bytes cut into payloads of 192 bytes, the last one with the remainder; `fuel` bounds the cells. -/
def cutPayloads : Nat → List Byte → List (List Byte)
  | 0, _ => []
  | fuel + 1, bs =>
    if bs = [] then [] else bs.take Config.payloadBytes :: cutPayloads fuel (bs.drop Config.payloadBytes)

/-- R114: the payloads of a sequence. -/
def payloads (bs : List Byte) : List (List Byte) := cutPayloads bs.length bs

/-- R110: the chain over whole 8-byte units; what is left after them, the residue, stays clear. -/
def chainUnits (permute : Long → Long) (y : Long) : List Byte → List Byte
  | b0 :: b1 :: b2 :: b3 :: b4 :: b5 :: b6 :: b7 :: rest =>
    let x : Long := BitVec.ofNat 64 (beNat [b0, b1, b2, b3, b4, b5, b6, b7])
    let y' := permute (x ^^^ y)
    beBytes 8 y'.toNat ++ chainUnits permute y' rest
  | residue => residue

/-- R110: the used payload of a cell scrambled under a permutation, with the header as seed. -/
def scramblePayload (permute : Long → Long) (header payload : List Byte) : List Byte :=
  chainUnits permute (BitVec.ofNat 64 (beNat header)) payload

/-- R110: the inverse of the chain, as a receiver that holds the word runs it. -/
def unchainUnits (unpermute : Long → Long) (y : Long) : List Byte → List Byte
  | b0 :: b1 :: b2 :: b3 :: b4 :: b5 :: b6 :: b7 :: rest =>
    let y' : Long := BitVec.ofNat 64 (beNat [b0, b1, b2, b3, b4, b5, b6, b7])
    beBytes 8 (unpermute y' ^^^ y).toNat ++ unchainUnits unpermute y' rest
  | residue => residue

/-- R84 step 3, R114: picture cell `j` of an accepted result. -/
def pictureCell (program : Program) (count : BitVec 4) (interval : Word) (sequence : Word) (key : Option (Parity × Long))
    (j : Nat) (payload : List Byte) : List Byte :=
  let header : CellHeader :=
    { kind := .picture, start := j == 0, scramble := key.map Prod.fst, program := program
      count := count + BitVec.ofNat 4 j, used := payload.length, interval := interval, sequence := sequence.setWidth 16 }
  match key with
  | none => cellOf header payload
  | some (_, word) => cellOf header (scramblePayload (Config.cellPermutation word) (headerBytes header) payload)

/-- R84 step 3: the cells of an accepted result, numbered from `j`. -/
def pictureCells (program : Program) (count : BitVec 4) (interval sequence : Word) (key : Option (Parity × Long))
    (j : Nat) : List (List Byte) → List (List Byte)
  | [] => []
  | p :: rest =>
    pictureCell program count interval sequence key j p :: pictureCells program count interval sequence key (j + 1) rest

/-- R141 step 3: the cells of a side message, numbered from `j`. -/
def sideCells (program : Program) (count : BitVec 4) (interval : Word) (index j : Nat) :
    List (List Byte) → List (List Byte)
  | [] => []
  | p :: rest =>
    cellOf { kind := .side, start := j == 0, scramble := none, program := program, count := count + BitVec.ofNat 4 j
             used := p.length, interval := interval, sequence := BitVec.ofNat 16 index } p
      :: sideCells program count interval index (j + 1) rest

/-- R70: the 8-byte hold picture. -/
def holdPicture (sequence : BitVec 16) : List Byte :=
  [0x5A, 0x17] ++ beBytes 2 sequence.toNat ++ [3, 0, 0, 0]

/-- R70, R113, R115: the cell of a produced entry. -/
def holdCell (program : Program) (count : BitVec 4) (sequence : BitVec 16) (interval : Word) : List Byte :=
  cellOf { kind := .picture, start := true, scramble := none, program := program, count := count, used := 8
           interval := interval, sequence := sequence } (holdPicture sequence)

/-- R113: a null cell of a line interval. -/
def nullCell (interval : Word) : List Byte :=
  cellOf { kind := .null, start := false, scramble := none, program := 0, count := 0, used := 0, interval := interval
           sequence := 0 } []

end Sys2Proof.Machine
end

