-- ==== Sys2Proof/Machine/Line.lean ====
section
/-! DEFINITION. The line output (08_the_cell_line.md): lists and holdings, the boundary swap, the arbiter, and the meaning
of CELL_REQUEST. -/

namespace Sys2Proof.Machine

/-! ### The lists -/

/-- R147: a program's sequence in the building list. -/
def Parts.sequence (p : Parts) : List Entry := p.deferred ++ p.picture ++ p.side

/-- R147: a placeholder or hold cell joins a program's picture part. -/
def Line.addProduced (l : Line) (p : Program) (count : BitVec 4) (sequence : BitVec 16) : Line :=
  { l with
    building := l.building.modify p fun b => { b with picture := b.picture ++ [.produced p count sequence] } }

/-- R148: the placeholder with a count is replaced in one step by the job's cells. -/
def replacePlaceholder (count : BitVec 4) (cells : List Entry) (part : List Entry) : List Entry :=
  part.flatMap fun e =>
    match e with
    | .produced _ c _ => if c = count then cells else [e]
    | .stored .. => [e]

/-- R148, R120: a job's cells for this interval with their pages. -/
def Line.linkJob (l : Line) (p : Program) (count : BitVec 4) (cells : List Entry) (pages : List Nat) : Line :=
  { l with
    building := l.building.modify p fun b => { b with picture := replacePlaceholder count cells b.picture }
    buildingPages := l.buildingPages ++ pages }

/-- R149: deferred cells handed over with their pages. -/
def Line.defer (l : Line) (p : Program) (cells : List Entry) (pages : List Nat) : Line :=
  { l with holding := l.holding.modify p (· ++ cells), holdingPages := l.holdingPages ++ pages }

/-- R147: a side message's cells join the tail of the side part, with their page. -/
def Line.linkSide (l : Line) (p : Program) (cells : List Entry) (page : Nat) : Line :=
  { l with
    building := l.building.modify p fun b => { b with side := b.side ++ cells }
    buildingPages := l.buildingPages ++ [page] }

/-- Entries of a program's sequence not yet sent (R150 step 1). -/
def Sending.unsent (q : Sending) : Nat := q.entries.length - q.next

/-- R150 step 1: entries discarded over all programs. -/
def Line.unsentTotal (l : Line) : Nat := (programs.map fun p => (l.sending.look p).unsent).sum

/-- R150 steps 1 and 4 to 6, without the pages' return. -/
def Line.swap (l : Line) : Line :=
  { l with
    shortfall := l.unsentTotal
    discards := PerProgram.tabulate fun p => decide (0 < (l.sending.look p).unsent)
    sending := PerProgram.tabulate fun p => { entries := (l.building.look p).sequence, next := 0 }
    sendingPages := l.buildingPages
    building := PerProgram.tabulate fun p => { deferred := l.holding.look p, picture := [], side := [] }
    buildingPages := l.holdingPages
    holding := PerProgram.fill []
    holdingPages := []
    request := 0
    nulls := 0 }

/-- R156: the new sending list holds no entry and no deferred part is occupied. -/
def Line.isEmpty (l : Line) : Bool :=
  programs.all fun p => (l.sending.look p).entries.isEmpty && (l.building.look p).deferred.isEmpty

/-- R145: the line as START completion leaves it. -/
def Line.started : Line := { Line.reset with active := true }

/-- R157: the line INACTIVE with every list and holding emptied. -/
def Line.stopped (l : Line) : Line :=
  { l with
    active := false
    building := PerProgram.fill Parts.empty
    buildingPages := []
    sending := PerProgram.fill { entries := [], next := 0 }
    sendingPages := []
    holding := PerProgram.fill []
    holdingPages := [] }

/-- R157: the line stops and every page its lists and holdings held returns. -/
def State.stopLine (s : State) : State :=
  (s.returnPages (s.line.sendingPages ++ s.line.buildingPages ++ s.line.holdingPages)).setLine s.line.stopped

/-- The line's figures of a closed line interval (R156) and the store's free page figure (R123). -/
structure LineFigures where
  nulls : Nat
  shortfall : Nat
  discards : PerProgram Bool
  freePages : Nat
  deriving DecidableEq, Repr

/-- R150, R156: the line's boundary work, with the event it raises and the figures it hands over. -/
def State.swapLine (s : State) : State × LineFigures :=
  let s1 := s.returnPages s.line.sendingPages
  let s2 := s1.setLine s.line.swap
  let figures : LineFigures :=
    { nulls := s.line.nulls, shortfall := s2.line.shortfall, discards := s2.line.discards
      freePages := s1.store.free.length }
  (if 0 < figures.shortfall then s2.raise .lineShortfall else s2, figures)

/-! ### The arbiter -/

/-- R152: the due slot of entry `j` of a program with `c` entries. -/
def dueSlot (cpi c j : Nat) : Nat := j * cpi / c

/-- R152: the due slot of a program's next entry, if the program is eligible at a slot. -/
def Sending.due (q : Sending) (cpi slot : Nat) : Option Nat :=
  if q.next < q.entries.length then
    let d := dueSlot cpi q.entries.length q.next
    if d ≤ slot then some d else none
  else none

/-- R153: of two choices, the smaller due slot; the first where they share it. -/
def earlier (a b : Option (Nat × Program)) : Option (Nat × Program) :=
  match a, b with
  | none, b => b
  | a, none => a
  | some (d, p), some (d', p') => if d' < d then some (d', p') else some (d, p)

/-- R153: the program the arbiter chooses at a slot. -/
def Line.choose (l : Line) (cpi slot : Nat) : Option Program :=
  (programs.foldl (fun best p => earlier best (((l.sending.look p).due cpi slot).map fun d => (d, p))) none).map Prod.snd

/-- A request answered with a null cell (R153, R154). -/
def State.sendNull (s : State) : State :=
  s.setLine { s.line with nulls := s.line.nulls + 1, out := some (nullCell s.timer.number) }

/-- R121: a stored cell sent as written; a corrected read is counted. -/
def State.sendStored (s : State) (cell : List Byte) (check : ReadCheck) : State :=
  let s1 := s.setLine { s.line with out := some cell }
  match check with
  | .corrected => s1.setStore { s1.store with correctable := s1.store.correctable + 1 }
  | _ => s1

/-- R122: an uncorrectable read marks its page, raises and notes STORE_ERROR, and is answered with a null cell. -/
def State.storeError (s : State) (page : Nat) : State :=
  ((s.setStore { s.store with marks := insertPage page s.store.marks, errorNote := true }).raise .storeError).sendNull

/-- R154: the entry the arbiter chose is sent. -/
def State.sendEntry (s : State) (check : ReadCheck) : Entry → Host.Outcome State Fault Refusal
  | .produced p count sequence =>
    .next (s.setLine { s.line with out := some (holdCell p count sequence s.timer.number) })
  | .stored page place =>
    match s.store.cells.read (placeIndex page place) with
    | none => .fault .unwrittenPlace
    | some cell =>
      match check with
      | .uncorrectable => .next (s.storeError page)
      | c => .next (s.sendStored cell c)

/-- R146, R153: the request takes the next slot; the arbiter answers a slot below CPI, and a null cell any other. An
INACTIVE line answers nothing and counts nothing (R145). -/
def execCellRequest (check : ReadCheck) (s : State) : Host.Outcome State Fault Refusal :=
  if s.line.active then
    let slot := s.line.request
    let s1 := s.setLine { s.line with request := slot + 1 }
    let cpi := s.settingsD.cpi
    if slot < cpi then
      match s.line.choose cpi slot with
      | none => .next s1.sendNull
      | some p =>
        let q := s.line.sending.look p
        let s2 := s1.setLine { s1.line with sending := s1.line.sending.put p { q with next := q.next + 1 } }
        match q.entries[q.next]? with
        | none => .next s2.sendNull
        | some entry => s2.sendEntry check entry
    else .next s1.sendNull
  else .next (s.setLine { s.line with out := none })

end Sys2Proof.Machine
end

