-- ==== Sys2Proof/Machine/Side.lean ====
section
/-! DEFINITION. The side path and message filter (07_side_messages_and_filters.md): classification, the cue latch, the
side queue and reservation, side builds, and the meaning of SIDE_LINK. -/

namespace Sys2Proof.Machine

/-! ### Classification (R131 to R135) -/

/-- R132: the address rule. -/
def FilterTable.accepts (t : FilterTable) (owner : Program) (e : SideEntry) : Bool :=
  if e.target ≤ 15 then e.target == owner.val
  else if e.target = 0xFF then t.broadcast
  else t.groups.getLsbD (e.group % 64)

/-- R131 test 2: the entry check. -/
def SideEntry.valid (e : SideEntry) : Bool :=
  decide (1 ≤ e.length ∧ e.length ≤ 1024) && decide (e.target ≤ 15 ∨ e.target = 0xFE ∨ e.target = 0xFF)

/-- The bytes of a message's head that the filter reads (R133). -/
def SideEntry.headLength (e : SideEntry) : Nat := Nat.min e.length 64

/-- R133: an enabled filter matches a message head. -/
def Filter.matchesHead (f : Filter) (length : Nat) (head : List Byte) : Bool :=
  f.enabled && decide (f.compare ≤ length)
    && (List.range f.compare).all fun i => !f.mask.getLsbD i || byteAt head i == byteAt f.pattern i

/-- R134: the disposition of an action. -/
def FilterAction.disposition : FilterAction → Disposition
  | .carry => .carried
  | .drop => .droppedFilter
  | .cue => .carriedCue

/-- R131 test 5. -/
def FilterTable.defaultDisposition (t : FilterTable) : Disposition :=
  if t.defaultCarry then .carried else .droppedFilter

/-- R131 tests 4 and 5 on a message head: the first matching filter decides. -/
def FilterTable.filtered (t : FilterTable) (length : Nat) (head : List Byte) : Disposition :=
  match t.filters.find? fun f => f.matchesHead length head with
  | some f => f.action.disposition
  | none => t.defaultDisposition

/-- R131: the disposition of an entry decided without its message's bytes; none where test 4 has to read them. With no
table in force no filter is enabled and nothing is carried (R137: the case does not arise). -/
def classifyEarly (loading : Bool) (table : Option FilterTable) (owner : Program) (e : SideEntry) : Option Disposition :=
  if loading then some .droppedLoading
  else if !e.valid then some .droppedAddress
  else
    match table with
    | none => some .droppedFilter
    | some t =>
      if !t.accepts owner e then some .droppedAddress
      else if t.filters.any Filter.enabled then none
      else some t.defaultDisposition

/-- R133: the disposition once the head is read; a LOAD_FILTERS accepted meanwhile gives DROPPED_LOADING (log 28). -/
def classifyHead (loading : Bool) (table : Option FilterTable) (e : SideEntry) (head : List Byte) : Disposition :=
  if loading then .droppedLoading
  else
    match table with
    | none => .droppedFilter
    | some t => t.filtered e.length head

/-- R138: a LOAD_FILTERS is in flight. -/
def State.loading (s : State) : Bool := s.control.filterLoad.isSome

/-- R135: CARRIED_CUE sets a clear latch whose level is 0, raises CUE_LATCHED and is noted for the report. -/
def State.cueMatched (s : State) (p : Program) (d : Disposition) : State :=
  if d = .carriedCue ∧ s.side.latch.look p = false ∧ s.side.level.look p = false then
    (s.setSide { s.side with latch := s.side.latch.put p true, cueNote := s.side.cueNote.put p true }).raise .cueLatched
  else s

/-- R136: a cue-clear level is handed over. -/
def Side.handLevel (d : Side) (p : Program) (level : Bool) : Side :=
  { d with level := d.level.put p level, latch := if level then d.latch.put p false else d.latch }

/-- R18, R133, R143: the side fault note of a program. -/
def State.noteSideFault (s : State) (p : Program) : State :=
  s.setSide { s.side with faultNote := s.side.faultNote.put p true }

/-- What a slot keeps of a classified entry. -/
def SideEntry.classified (e : SideEntry) (d : Disposition) : SlotSide :=
  { disposition := d, address := e.address, length := e.length }

/-! ### The queue and the reservation (R139, R140) -/

/-- R131: the message is carried. -/
def Disposition.isCarried : Disposition → Bool
  | .carried => true
  | .carriedCue => true
  | _ => false

/-- R139: the join of one picture's messages from side entry `index` on: the sides with their new dispositions, and the
queue. -/
def joinSides (sMax : Nat) (p : Program) (key : Byte) : Nat → List SlotSide → List Message → List SlotSide × List Message
  | _, [], queue => ([], queue)
  | index, d :: rest, queue =>
    let (d', queue') :=
      if !d.disposition.isCarried then (d, queue)
      else if sMax = 0 then ({ d with disposition := .droppedNoCapacity }, queue)
      else if Config.sideQueueLimit ≤ queue.length then ({ d with disposition := .droppedQueueFull }, queue)
      else (d, queue ++ [{ program := p, key := key, index := index, address := d.address, length := d.length }])
    let (rest', queue'') := joinSides sMax p key (index + 1) rest queue'
    (d' :: rest', queue'')

/-- Cells a message needs (R140). -/
def Message.cells (m : Message) : Nat := ceilDiv m.length Config.payloadBytes

/-- R140: messages moved from the head of the queue while their cells stay within S_max, and what stays. -/
def reserveFrom (sMax used : Nat) : List Message → List Message × List Message
  | [] => ([], [])
  | m :: rest =>
    if used + m.cells ≤ sMax then
      let (moved, left) := reserveFrom sMax (used + m.cells) rest
      (m :: moved, left)
    else ([], m :: rest)

/-- R140: the cells of moved messages. -/
def reservedCells (moved : List Message) : Nat := (moved.map Message.cells).sum

/-! ### Side builds (R141 to R144) -/

/-- The first waiting message becomes the one building. -/
def markBuilding : List Reserved → List Reserved
  | [] => []
  | r :: rest => if r.state = .waiting then { r with state := .building } :: rest else r :: markBuilding rest

/-- The message building becomes built. -/
def markBuilt (rs : List Reserved) : List Reserved :=
  rs.map fun r => if r.state = .building then { r with state := .built } else r

/-- R143: the message building leaves the reserved list. -/
def dropBuilding (rs : List Reserved) : List Reserved := rs.filter fun r => r.state ≠ .building

/-- R143: a side fault: the page returns, the message is dropped and the fault noted. -/
def State.sideFault (s : State) : State :=
  match s.side.build with
  | none => s
  | some b =>
    let s1 := s.returnPages [b.page]
    (s1.setSide { s1.side with build := none, reserved := dropBuilding s1.side.reserved }).noteSideFault b.message.program

/-- R141 steps 1 and 2 for the next waiting message; a refused read drops it and the next one is tried; an empty free
list stops the interval's builds (R143). `fuel` bounds the messages. -/
def State.startSideBuild : Nat → State → State
  | 0, s => s
  | fuel + 1, s =>
    if s.side.stopped || s.side.build.isSome then s
    else
      match s.side.reserved.find? fun r => r.state = .waiting with
      | none => s
      | some r =>
        match s.store.request 1 with
        | some ([page], store) =>
          let s1 := (s.setStore store).setSide
            { s.side with reserved := markBuilding s.side.reserved
                          build := some { message := r.message, page := page, data := none } }
          match s1.issue (readRequest .side (some r.message.key) r.message.address r.message.length) with
          | (s2, none) => s2
          | (s2, some _) => State.startSideBuild fuel s2.sideFault
        | _ => s.setSide { s.side with stopped := true }

/-- R141: the side path goes on with its next waiting message. -/
def State.nextSideBuild (s : State) : State := s.startSideBuild (s.side.reserved.length + 1)

/-- R141 step 2, R143: the end of the message read. -/
def State.sideReply (s : State) (r : Reply) : State :=
  match s.side.build, r with
  | none, _ => s
  | some b, .done data => s.setSide { s.side with build := some { b with data := some (exactly b.message.length data) } }
  | some _, .failed _ => s.sideFault.nextSideBuild

/-- Stored entries for the first `n` places of a page. -/
def placeEntries (page n : Nat) : List Entry := (List.range n).map fun i => .stored page i

/-- Cells with the places of a page they are written to, from place 0 (R118). -/
def pageWrites (page : Nat) (cells : List (List Byte)) : List (Nat × List Byte) :=
  cells.zipIdx.map fun e => (placeIndex page e.2, e.1)

/-- R141 steps 3 to 5, R142: the message's cells are cut, stored and linked, and the counter advances. -/
def State.linkSideBuild (s : State) (b : SideBuild) (data : List Byte) : State :=
  let p := b.message.program
  let count := s.side.counters.look p
  let cells := sideCells p count (s.timer.number + 1) b.message.index 0 (payloads data)
  let s1 := s.setStore { s.store with cells := s.store.cells.writeAll (pageWrites b.page cells) }
  let s2 := s1.setLine (s1.line.linkSide p (placeEntries b.page cells.length) b.page)
  s2.setSide { s2.side with
    build := none
    reserved := markBuilt s2.side.reserved
    counters := s2.side.counters.put p (count + BitVec.ofNat 4 cells.length) }

/-- SIDE_LINK (R141); without a build whose message has been read nothing links (log 3). -/
def execSideLink (s : State) : Host.Outcome State Fault Refusal :=
  match s.side.build with
  | some b =>
    match b.data with
    | some data => .next (s.linkSideBuild b data).nextSideBuild
    | none => .next s
  | none => .next s

/-- R144: the reservation ends: unbuilt messages return to the head of the queue, a build in flight ends. -/
def State.endReservation (s : State) : State :=
  let s1 :=
    match s.side.build with
    | some b => s.returnPages [b.page]
    | none => s
  let s2 := s1.dropAccesses fun a => a == .side
  s2.setSide { s2.side with
    build := none
    stopped := false
    queue := ((s2.side.reserved.filter fun r => r.state ≠ .built).map Reserved.message) ++ s2.side.queue
    reserved := [] }

/-- R144: HALT empties queue and reserved list without return. -/
def State.haltSide (s : State) : State :=
  let s1 := s.endReservation
  s1.setSide { s1.side with queue := [] }

/-- R136, R139, R142, R181: START's values; the table in force is kept. -/
def Side.started (d : Side) : Side := { Side.reset with table := d.table }

end Sys2Proof.Machine
end

