-- ==== Sys2Proof/Machine/Endings.lean ====
section
/-! DEFINITION. How the recoder's work ends at a boundary, at HALT and on the way to IDLE (04, 4.7). -/

namespace Sys2Proof.Machine

/-- The job of an engine. -/
def EnginePhase.job : EnginePhase → Option Job
  | .idle => none
  | .coding j _ => some j
  | .passEnded j _ => some j
  | .building j _ => some j

/-- Every job that has not ended: the queue's and the engines'. -/
def Recoder.jobs (r : Recoder) : List Job :=
  r.queue ++ (r.re0.phase.job.toList ++ r.re1.phase.job.toList)

/-- An engine of an access. -/
def Agent.isEngine : Agent → Bool
  | .engine _ => true
  | _ => false

/-- R89, R90: the queue emptied, both engines idle, their reads dropped. -/
def State.dropJobs (s : State) : State :=
  let s1 := s.dropAccesses Agent.isEngine
  s1.setRecoder
    { s1.recoder with
      queue := []
      re0 := { s1.recoder.re0 with phase := .idle }
      re1 := { s1.recoder.re1 with phase := .idle } }

/-- R119, R89, R90: the pages that jobs held return, each job's as an event of its own (log 12). -/
def State.returnJobs (s : State) (jobs : List Job) : State := jobs.foldl (fun s j => s.returnPages j.pages) s

/-- R90: HALT's work in the recoder. -/
def State.haltRecoder (s : State) : State :=
  let s1 := (s.returnJobs s.recoder.jobs).dropJobs
  s1.setRecoder { s1.recoder with spare := 0 }

end Sys2Proof.Machine
end

