-- ==== Sys2Proof/Machine/Reports.lean ====
section
/-! DEFINITION. The report unit (09, R166 to R170; 10, R176, R180): the fault record queue, the writing of reports and the
end of a drain. -/

namespace Sys2Proof.Machine

/-- A report flag of a program is noted (R181). -/
def State.note (s : State) (p : Program) (f : Notes → Notes) : State :=
  s.setController { s.controller with notes := s.controller.notes.modify p f }

/-! ### The fault record queue (R166 to R168) -/

/-- R166: the one WRITE for the request at the head of the queue. A refused write has ended (R168). -/
def State.startFaultWrite (s : State) : State :=
  match s.reporter.faultQueue with
  | [] => s.setReporter { s.reporter with faultWrite := none }
  | r :: _ =>
    match s.issue (writeRequest .faultRecord (some r.key) r.area (faultRecordBytes r)) with
    | (s1, none) => s1.setReporter { s1.reporter with faultWrite := some .waiting }
    | (s1, some _) => s1.setReporter { s1.reporter with faultWrite := some (.ended false) }

/-- R166: a request joins the queue, or takes the place of the waiting request of its program, whose record is lost. -/
def State.requestFaultRecord (s : State) (req : FaultRequest) : State :=
  match s.reporter.faultQueue with
  | [] => (s.setReporter { s.reporter with faultQueue := [req] }).startFaultWrite
  | head :: waiting =>
    if waiting.any fun r => r.program = req.program then
      (s.setReporter
        { s.reporter with
          faultQueue := head :: waiting.map fun r => if r.program = req.program then req else r }).note
        req.program fun n => { n with faultRecordLost := true }
    else s.setReporter { s.reporter with faultQueue := head :: waiting ++ [req] }

/-- R161: the bus ends the write of a fault record. -/
def State.faultReply (s : State) (r : Reply) : State :=
  match s.reporter.faultWrite, r with
  | some .waiting, .done _ => s.setReporter { s.reporter with faultWrite := some (.ended true) }
  | some .waiting, .failed _ => s.setReporter { s.reporter with faultWrite := some (.ended false) }
  | _, _ => s

/-- FAULT_RECORD_WRITE_END (R166, R168): the request leaves the queue, PROGRAM_HELD is raised, a failed write is noted and
the next request's write begins. Without a write that has ended nothing ends (log 3). -/
def execFaultRecordWriteEnd (s : State) : Host.Outcome State Fault Refusal :=
  match s.reporter.faultWrite, s.reporter.faultQueue with
  | some (.ended written), req :: rest =>
    let s1 := (s.setReporter { s.reporter with faultQueue := rest, faultWrite := none }).raise .programHeld
    let s2 := if written then s1 else s1.note req.program fun n => { n with faultRecordLost := true }
    .next s2.startFaultWrite
  | _, _ => .next s

/-! ### The end of a drain (R171, R176) -/

/-- R145, R171, R175: on entry to IDLE from DRAINING the timer stops and the line becomes INACTIVE. That what an intake, an
allocation or a reservation begun after the drain-ending boundary has left is ended with it, and that the allocator's interval status
is closed then, of which R43 says nothing, is the model's DESIGN CHOICE (log 21). -/
def State.enterIdle (s : State) : State :=
  if s.control.device = .draining then
    let s1 := ((s.dropAccesses fun a => a == .intake).haltRecoder.endReservation).stopLine
    let s2 := s1.setControl { s1.control with device := .idle, notice := false, drainEnding := false }
    let s3 := s2.setTimer { s2.timer with running := false }
    let s4 := s3.setController { s3.controller with intake := none }
    let s5 := s4.setAllocator { s4.allocator with inFlight := none, isOpen := false }
    s5.setReporter { s5.reporter with waiting := [] }
  else s

/-! ### Reports (R170, R180) -/

/-- R180: the first access of the next report, if none is being written. -/
def State.startReport (s : State) : State :=
  match s.reporter.work, s.reporter.waiting with
  | none, f :: rest =>
    ((s.setReporter { s.reporter with work := some { figures := f, phase := .consumed }, waiting := rest }).issue
      (readRequest .report none (s.settingsD.directory + 0x3C) 4)).1
  | _, _ => s

/-- A report's accesses have ended: the drain ends with the report of the boundary that ends it (R176), and otherwise the
next report follows. -/
def State.endReport (s : State) (f : Figures) : State :=
  let s1 := s.setReporter { s.reporter with work := none }
  if f.endsDrain then s1.enterIdle else s1.startReport

/-- R170: a failure stops reporting. R170 speaks of later boundaries: that a report waiting its turn, whose boundary was taken while
reporting was on, is discarded with them is the model's DESIGN CHOICE (log 45). -/
def State.stopReporting (s : State) (f : Figures) : State :=
  let ends := f.endsDrain || s.reporter.waiting.any Figures.endsDrain
  let s1 := (s.setReporter { s.reporter with isOn := false, work := none, waiting := [] }).raise .reportSkipped
  if ends then s1.enterIdle else s1

/-- R180: the table is full. -/
def tableFull (slots w c : Nat) : Bool := decide ((w + 1) % slots = c ∨ slots ≤ c)

/-- R180: the consumed index decides between a skip and the write of the record. -/
def State.reportIndexRead (s : State) (f : Figures) (c : Nat) : State :=
  if tableFull s.settingsD.reportSlots s.reporter.writeIndex c then
    ((s.setReporter { s.reporter with skipped := Nat.min (s.reporter.skipped + 1) 65535 }).raise .reportSkipped).endReport f
  else
    match (s.setReporter { s.reporter with work := some { figures := f, phase := .record } }).issue
      (writeRequest .report (some 0)
        (s.settingsD.reportBase + BitVec.ofNat 64 (576 * s.reporter.writeIndex)) (reportBytes f s.reporter.skipped)) with
    | (s1, none) => s1
    | (s1, some _) => s1.stopReporting f

/-- The write index after a report (R180). -/
def State.nextWriteIndex (s : State) : Nat := (s.reporter.writeIndex + 1) % s.settingsD.reportSlots

/-- R180 step 3: the record is written; the new write index goes to the directory. -/
def State.reportRecordWritten (s : State) (f : Figures) : State :=
  ((s.setReporter { s.reporter with skipped := 0, work := some { figures := f, phase := .index } }).issue
    (writeRequest .report none (s.settingsD.directory + 0x38) (leBytes 4 s.nextWriteIndex))).1

/-- R180: the index is written. That the device's own index stays where this write fails is the model's DESIGN CHOICE (log 46). -/
def State.reportIndexWritten (s : State) (f : Figures) : State :=
  ((s.setReporter { s.reporter with writeIndex := s.nextWriteIndex }).raise .reportWritten).endReport f

/-- R170, R180: the end of an access of the report being written. -/
def State.reportReply (s : State) (r : Reply) : State :=
  match s.reporter.work with
  | none => s
  | some w =>
    match r, w.phase with
    | .failed _, _ => s.stopReporting w.figures
    | .done data, .consumed => s.reportIndexRead w.figures (leNat data 0 4)
    | .done _, .record => s.reportRecordWritten w.figures
    | .done _, .index => s.reportIndexWritten w.figures

end Sys2Proof.Machine
end

