-- ==== Sys2Proof/Machine/Controller.lean ====
section
/-! DEFINITION. The program controller (01_programs_and_the_picture_chain.md, 02_input_pictures_and_the_lookahead_window.md):
windows, holding, status parts, HALT's abandonment, the intake and its takes, and the meanings of FINISH_REPORT and
FAULT_REPORT. -/

namespace Sys2Proof.Machine

/-! ### Windows (R31 to R36) -/

/-- The physical slot of the logical name at offset `i` (2.4). -/
def Window.slotIndex (w : Window) (i : Nat) : Fin 4 := w.head + Fin.ofNat 4 i

/-- The contents of the logical name at offset `i`. -/
def Window.named (w : Window) (i : Nat) : Slot := w.slots[w.slotIndex i]

/-- R32: the valid names in logical order. -/
def Window.valid (w : Window) : List Slot := (List.range w.count).map w.named

/-- R34: a take writes the slot behind the last valid name. -/
def Window.push (w : Window) (x : Slot) : Window :=
  { w with count := w.count + 1, slots := w.slots.set (w.slotIndex w.count).val x (w.slotIndex w.count).isLt }

/-- R35: a finish of A. -/
def Window.pop (w : Window) : Window := { w with head := w.head + 1, count := w.count - 1 }

/-- R37: A's record has been written FAULTED. -/
def Window.markFaulted (w : Window) : Window :=
  { w with slots := w.slots.set w.head.val { w.named 0 with faulted := true } w.head.isLt }

/-- R31: START and program start. -/
def Window.started (w : Window) : Window := { w with head := 0, count := 0 }

/-! ### Program states (R10, R11, R14) -/

/-- Every program is OFF. -/
def State.allOff (s : State) : Bool := programs.all fun p => (s.ctx p).state = .off

/-- R176: the notice, once every program is OFF in DRAINING. -/
def State.noticeIfAllOff (s : State) : State :=
  if s.control.device = .draining ∧ s.allOff then s.setControl { s.control with notice := true } else s

/-- A program becomes OFF (R8, R10, R15; R94 for its parity record). -/
def State.programOff (s : State) (p : Program) : State :=
  let s1 := s.modCtx p fun c => { c with state := .off }
  (s1.setKeys { s1.keys with records := s1.keys.records.modify p ParityRecord.offed }).noticeIfAllOff

/-- R167: the request's part that the fault gives. -/
def faultOf (cause : FaultCause) (f : Failure) (record : Long) (sequence : Word) (pass : Nat) : FaultInfo :=
  { cause := cause, result := some f.result, record := record, sequence := sequence, addr := f.addr, length := f.length
    kind := f.kind, region := f.region, pass := pass }

/-- R167: an invalid link. -/
def linkFault (record link : Long) (sequence : Word) : FaultInfo :=
  { cause := .linkInvalid, result := none, record := record, sequence := sequence, addr := link, length := 0, kind := .read
    region := noIndex, pass := 0 }

/-- R167: the fault record request of a program as it stands. -/
def State.faultRequest (s : State) (p : Program) (info : FaultInfo) : FaultRequest :=
  let c := s.ctx p
  { program := p, area := c.fixed.faultArea, key := c.fixed.accessKey, interval := s.timer.number, info := info
    count := c.window.count, sequences := c.window.valid.map Slot.sequence }

/-- A flag that the intake sets is kept until it ends (R24). -/
def State.intakeNote (s : State) (p : Program) (f : Notes → Notes) : State :=
  s.setController { s.controller with intakeNotes := s.controller.intakeNotes.modify p f }

/-- R11: a holding fault. A program already HELD gets the flag alone, an OFF program nothing. -/
def State.hold (s : State) (p : Program) (byIntake : Bool) (info : FaultInfo) : State :=
  let noted :=
    if byIntake then s.intakeNote p fun n => { n with heldFault := true }
    else s.note p fun n => { n with heldFault := true }
  match (s.ctx p).state with
  | .off => s
  | .held => noted
  | _ => (noted.modCtx p fun c => { c with state := .held }).requestFaultRecord (s.faultRequest p info)

/-! ### Record writes (R18, R22) -/

/-- Bytes the device writes to a program's record, at an offset. -/
def State.issueRecord (s : State) (agent : Agent) (p : Program) (record : Long) (offset : Nat) (data : List Byte) : Cont :=
  s.issue (writeRequest agent (some (s.ctx p).fixed.accessKey) (record + BitVec.ofNat 64 offset) data)

/-- R22: the finish sets the last outcome and the last interval coded. -/
def State.setLast (s : State) (p : Program) (o : Outcome) (interval : Word) : State :=
  s.modCtx p fun c => { c with lastOutcome := some o, lastInterval := interval }

/-! ### Status parts (R6) -/

/-- R6: the write of one program's status part with the values of this moment. -/
def State.issueStatus (s : State) (p : Program) : Cont :=
  s.issue
    (writeRequest .status (some 0) (s.settingsD.programTable + BitVec.ofNat 64 (128 * p.val + 0x40))
      (statusBytes (s.ctx p) (s.allocator.debt.look p) (s.allocator.delivered.look p).sum (s.keys.records.look p)
        (s.side.latch.look p)))

/-- R6: a status part was not written. -/
def State.statusFailed (s : State) (p : Program) : State := s.note p fun n => { n with statusUnwritten := true }

/-- R6: the next status parts, in order; a refused write is noted and the next one follows. The controller's HALT work is
done when none is left (R15). -/
def State.statusRun : List Program → State → State
  | [], s =>
    let s1 := s.setController { s.controller with statusTodo := [] }
    if s.controller.halt = some .status then s1.setController { s1.controller with halt := some .done } else s1
  | p :: rest, s =>
    match s.issueStatus p with
    | (s1, none) => s1.setController { s1.controller with statusTodo := p :: rest }
    | (s1, some _) => State.statusRun rest (s1.statusFailed p)

/-- R6: the end of a status part's write. -/
def State.statusReply (s : State) (r : Reply) : State :=
  match s.controller.statusTodo, r with
  | [], _ => s
  | _ :: rest, .done _ => s.statusRun rest
  | p :: rest, .failed _ => (s.statusFailed p).statusRun rest

/-- R6: a round of 16 status parts begins, behind the parts of an earlier round that are still to be written (log 27). -/
def State.startStatus (s : State) : State :=
  match s.controller.statusTodo with
  | [] => s.statusRun programs
  | todo => s.setController { s.controller with statusTodo := todo ++ programs }

/-! ### Abandonment (R13, R36) -/

/-- What an abandonment waits for. -/
inductive AbandonWait where
  | outcome (index : Nat)
  | state (index : Nat)
  | finished
  deriving DecidableEq, Repr

/-- R13: the visit of a program's window from the name at offset `i`; `fuel` bounds the names. -/
def State.abandonFrom (agent : Agent) (note : State → State) (p : Program) : Nat → Nat → State → State × AbandonWait
  | 0, _, s => (s, .finished)
  | fuel + 1, i, s =>
    let w := (s.ctx p).window
    if w.count ≤ i then (s, .finished)
    else if (w.named i).faulted then State.abandonFrom agent note p fuel (i + 1) s
    else
      match s.issueRecord agent p (w.named i).record 0x30
        (outcomeBytes .abandoned 0 0 0 0 s.timer.number (w.named i).sides) with
      | (s1, none) => (s1, .outcome i)
      | (s1, some _) => State.abandonFrom agent note p fuel (i + 1) (note s1)

/-- R13: the end of an outcome write or of a state write of an abandonment. -/
def State.abandonReply (agent : Agent) (note : State → State) (p : Program) (isState : Bool) (i : Nat) (r : Reply)
    (s : State) : State × AbandonWait :=
  match r with
  | .failed _ => (note s).abandonFrom agent note p 4 (i + 1)
  | .done _ =>
    if isState then s.abandonFrom agent note p 4 (i + 1)
    else
      match s.issueRecord agent p ((s.ctx p).window.named i).record 0 [doneCode] with
      | (s1, none) => (s1, .state i)
      | (s1, some _) => (note s1).abandonFrom agent note p 4 (i + 1)

/-- R13, R36: the window is empty and the program OFF. -/
def State.endAbandon (s : State) (p : Program) : State :=
  (s.modCtx p fun c => { c with window := { c.window with count := 0 } }).programOff p

/-! ### HALT (R15) -/

/-- The state with another phase of the HALT work. -/
def State.setHalt (s : State) (h : HaltPhase) : State := s.setController { s.controller with halt := some h }

/-- R13: a record write failed while HALT abandons a window. -/
def State.haltNote (p : Program) (s : State) : State := s.note p fun n => { n with abandonWriteFault := true }

/-- R15: the windows of the programs that are not OFF are abandoned in order; then the status parts are written. -/
def State.haltAdvance (writesStatus : Bool) : List Program → State → State
  | [], s => if writesStatus then (s.setHalt .status).startStatus else s.setHalt .done
  | p :: rest, s =>
    if (s.ctx p).state = .off then State.haltAdvance writesStatus rest s
    else if (s.ctx p).finish.isSome then s.setHalt (.waitFinish (p :: rest) writesStatus)
    else
      match s.abandonFrom .halt (State.haltNote p) p 4 0 with
      | (s1, .outcome i) => s1.setHalt (.outcome (p :: rest) i writesStatus)
      | (s1, .state i) => s1.setHalt (.state (p :: rest) i writesStatus)
      | (s1, .finished) => State.haltAdvance writesStatus rest (s1.endAbandon p)

/-- R15: an abandonment at HALT goes on, or the next program follows. -/
def State.haltAfter (p : Program) (rest : List Program) (writesStatus : Bool) : State × AbandonWait → State
  | (s, .outcome i) => s.setHalt (.outcome (p :: rest) i writesStatus)
  | (s, .state i) => s.setHalt (.state (p :: rest) i writesStatus)
  | (s, .finished) => (s.endAbandon p).haltAdvance writesStatus rest

/-- R15: the end of a record write that HALT's abandonment made. -/
def State.haltReply (s : State) (r : Reply) : State :=
  match s.controller.halt with
  | some (.outcome (p :: rest) i w) => State.haltAfter p rest w (s.abandonReply .halt (State.haltNote p) p false i r)
  | some (.state (p :: rest) i w) => State.haltAfter p rest w (s.abandonReply .halt (State.haltNote p) p true i r)
  | _ => s

/-! ### Intake (R1 to R5, R8, R10, R14, R17 to R21) -/

/-- The intake at another phase. -/
def State.atPhase (s : State) (ph : IntakePhase) : State :=
  s.setController { s.controller with intake := s.controller.intake.map fun i => { i with phase := ph } }

/-- The intake with one more counted take (R19). -/
def State.countTake (s : State) : State :=
  s.setController { s.controller with intake := s.controller.intake.map fun i => { i with takes := i.takes + 1 } }

/-- R15: an intake that HALT ended leaves the controller to its HALT work. -/
def State.endHaltedIntake (s : State) : State :=
  let s1 := s.setController { s.controller with intake := none }
  match s.controller.halt with
  | some (.waitIntake w) => s1.haltAdvance w programs
  | _ => s1

/-- R1 step 1: the intake comes to a program and reads its live part. -/
def State.beginProgram (s : State) (p : Program) : Cont :=
  (s.setController
    { s.controller with
      intake := s.controller.intake.map fun i => { i with program := p, takes := 0, phase := .live } }).issue
    (readRequest .intake (some 0) (s.settingsD.programTable + BitVec.ofNat 64 (128 * p.val)) 16)

/-- R1: the intake is done with its program. -/
def State.nextProgram (s : State) : Cont :=
  match s.controller.intake with
  | none => (s, none)
  | some i =>
    if i.halted then (s.endHaltedIntake, none)
    else if i.program = 15 then (s.atPhase .allDone, none)
    else s.beginProgram (i.program + 1)

/-- R19: the next take of the program, or the next program. -/
def State.tryTake (s : State) (p : Program) : Cont :=
  match s.controller.intake with
  | none => (s, none)
  | some i =>
    let c := s.ctx p
    if i.halted then (s.endHaltedIntake, none)
    else if (c.state = .priming ∨ c.state = .running) ∧ i.takes < 2 ∧ c.window.count < 4 then
      (s.atPhase .stateRead).issue (readRequest .intake (some c.fixed.accessKey) c.nextRecord 1)
    else s.nextProgram

/-- R2: the parity pair read is handed to the key unit if it is new and has a target. -/
def State.handPair (s : State) (p : Program) : State :=
  let c := s.ctx p
  match c.live with
  | none => s
  | some l =>
    match l.target with
    | none => s
    | some t =>
      if c.fixed.scrambled ∧ c.state ≠ .off ∧ (some t, l.interval) ≠ c.lastPair then
        let s1 := s.modCtx p fun c => { c with lastPair := (some t, l.interval) }
        s1.setKeys { s1.keys with records := s1.keys.records.modify p fun r => r.handed t l.interval }
      else s

/-- What follows R8 for a program whose window stays. -/
def State.afterMode (s : State) (p : Program) : Cont := (s.handPair p).tryTake p

/-- R13: a record write failed while an intake abandons a window. -/
def State.intakeAbandonNote (p : Program) (s : State) : State := s.intakeNote p fun n => { n with abandonWriteFault := true }

/-- R13: an abandonment at intake goes on, or the next program follows. -/
def State.intakeAfter (p : Program) : State × AbandonWait → Cont
  | (s, .outcome i) => (s.atPhase (.abandonOutcome i), none)
  | (s, .state i) => (s.atPhase (.abandonState i), none)
  | (s, .finished) => (s.endAbandon p).nextProgram

/-- R8: OFF with the window abandoned; a finish of the program being written is waited for (log 16). -/
def State.intakeAbandon (s : State) (p : Program) : Cont :=
  if (s.ctx p).finish.isSome then (s.atPhase .waitFinish, none)
  else State.intakeAfter p (s.abandonFrom .intake (State.intakeAbandonNote p) p 4 0)

/-- R14: the desired mode that R8 uses. -/
def State.desiredMode (s : State) (p : Program) : DesiredMode :=
  match (s.ctx p).live with
  | none => .off
  | some l => if s.control.device = .draining ∧ l.mode = .run then .off else l.mode

/-- R8, R10: a program that is or becomes DRAINING. -/
def State.drainProgram (s : State) (p : Program) : Cont :=
  if (s.ctx p).window.count = 0 then (s.programOff p).afterMode p
  else (s.modCtx p fun c => { c with state := .draining }).afterMode p

/-- R8: the transition of a program. -/
def State.transition (s : State) (p : Program) : Cont :=
  match (s.ctx p).state, s.desiredMode p with
  | .off, .run =>
    (s.atPhase .fixed).issue
      (readRequest .intake (some 0) (s.settingsD.programTable + BitVec.ofNat 64 (128 * p.val + 0x10)) 48)
  | .off, .off => s.nextProgram
  | .off, .abort => s.nextProgram
  | .priming, .run => s.afterMode p
  | .priming, .off => s.intakeAbandon p
  | .priming, .abort => s.intakeAbandon p
  | .running, .run => s.afterMode p
  | .running, .off => s.drainProgram p
  | .running, .abort => s.intakeAbandon p
  | .draining, .run => (s.modCtx p fun c => { c with state := .running }).afterMode p
  | .draining, .off => s.drainProgram p
  | .draining, .abort => s.intakeAbandon p
  | .held, .run => s.afterMode p
  | .held, .off => s.intakeAbandon p
  | .held, .abort => s.intakeAbandon p

/-- R2: the cue-clear level is handed once a read has succeeded. -/
def State.handCue (s : State) (p : Program) : State :=
  match (s.ctx p).live with
  | none => s
  | some l => s.setSide (s.side.handLevel p l.cueClear)

/-- R1, R3: the end of the live part's read. -/
def State.liveReply (s : State) (p : Program) (r : Reply) : Cont :=
  match r with
  | .failed _ => ((s.intakeNote p fun n => { n with entryUnreadable := true }).handCue p).transition p
  | .done data =>
    let s1 := s.modCtx p fun c => { c with live := some (readLive s.settingsD.cpi data) }
    let s2 := if liveClamped s.settingsD.cpi data then s1.intakeNote p fun n => { n with configClamped := true } else s1
    (s2.handCue p).transition p

/-- R5: the program starts. -/
def State.startProgram (s : State) (p : Program) (f : Fixed) : State :=
  let s1 := s.modCtx p fun c =>
    { c with
      state := .priming, fixed := f, nextRecord := f.chainStart, window := c.window.started, lastPair := (none, 0)
      lastOutcome := none, lastInterval := 0, refused := .none }
  let s2 := s1.setAllocator { s1.allocator with delivered := s1.allocator.delivered.put p [] }
  let s3 := s2.setRecoder { s2.recoder with counters := s2.recoder.counters.put p 0 }
  let s4 := s3.setKeys { s3.keys with records := s3.keys.records.put p (ParityRecord.started f.scrambled) }
  s4.setSide { s4.side with counters := s4.side.counters.put p 0, latch := s4.side.latch.put p false }

/-- R4: the end of the fixed part's read. In a device that a STOP has put in DRAINING meanwhile, the program is not started
and keeps its start-refused code (R4 "not stopping", R14; log 41). -/
def State.fixedReply (s : State) (p : Program) (r : Reply) : Cont :=
  if s.control.device = .draining then s.nextProgram
  else
    match r with
    | .failed _ =>
      ((s.modCtx p fun c => { c with refused := .entryUnreadable }).intakeNote p fun n =>
        { n with entryUnreadable := true }).nextProgram
    | .done data =>
      match fixedRefusal data with
      | .none => (s.startProgram p (readFixed data)).afterMode p
      | code => (s.modCtx p fun c => { c with refused := code }).nextProgram

/-- R21, R22: the one attempt to write FAULTED to the record of the take. `outcome` is the finish whose write failed, with its
coding interval. -/
def State.faultedAttempt (s : State) (p : Program) (info : FaultInfo) (outcome : Option (Outcome × Word)) : Cont :=
  (s.atPhase (.faulted info outcome)).issueRecord .intake p (s.ctx p).nextRecord 0 [faultedCode]

/-- R21: the end of that attempt, whatever it is: the program is held and the intake goes on. -/
def State.faultedReply (s : State) (p : Program) (info : FaultInfo) (outcome : Option (Outcome × Word)) : Cont :=
  let s1 :=
    match outcome with
    | none => s
    | some (o, interval) => s.setLast p o interval
  (s1.hold p true info).nextProgram

/-- A take goes no further: HALT ends the intake after the step being performed (R15), or the holding fault of a report has made
the program HELD meanwhile, which takes nothing and keeps its window and next record address (R11, R17, R19, R40; log 40). -/
def State.takeEnds (s : State) (p : Program) : Bool :=
  (s.controller.intake.any Intake.halted) || decide ((s.ctx p).state = .held)

/-- The next step of a take, unless the take goes no further. A step that failed is handled as R18 gives before that. -/
def State.takeOn (s : State) (p : Program) (next : State → Cont) : Cont :=
  if s.takeEnds p then s.nextProgram else next s

/-- R18 steps 1 to 3: the end of the state read. -/
def State.stateReply (s : State) (p : Program) (r : Reply) : Cont :=
  match r with
  | .failed f => (s.hold p true (faultOf .recordRead f (s.ctx p).nextRecord 0 0)).nextProgram
  | .done data =>
    s.takeOn p fun s =>
      if byteAt data 0 = 1 then
        (s.countTake.atPhase .recordRead).issue
          (readRequest .intake (some (s.ctx p).fixed.accessKey) (s.ctx p).nextRecord 96)
      else s.nextProgram

/-- R18, R20: a record finished at intake, outcome fields first. -/
def State.finishAtIntake (s : State) (p : Program) (o : Outcome) (rf : RecordFields) : Cont :=
  (s.atPhase (.finishOutcome o s.timer.number rf)).issueRecord .intake p (s.ctx p).nextRecord 0x30
    (outcomeBytes o 0 0 0 0 s.timer.number [])

/-- R18 steps 4 to 6: the end of the record read. -/
def State.recordReply (s : State) (p : Program) (r : Reply) : Cont :=
  let c := s.ctx p
  match r with
  | .failed f => s.faultedAttempt p (faultOf .recordRead f c.nextRecord 0 0) none
  | .done data =>
    let rf := readRecord data
    s.takeOn p fun s =>
      if !alignedAddress rf.link then s.faultedAttempt p (linkFault c.nextRecord rf.link rf.sequence) none
      else if !recordValid rf then s.finishAtIntake p .malformed rf
      else
        (s.atPhase (.sliceTable rf)).issue
          (readRequest .intake (some c.fixed.accessKey) rf.sliceTable (16 * rf.sliceCount))

/-- R33: the slot that a take writes. -/
def slotOf (takeNumber : Word) (record : Long) (rf : RecordFields) (slices : List SliceDesc) (sides : List SlotSide) :
    Slot :=
  { takeNumber := takeNumber, record := record, sequence := rf.sequence, kind := kindOf rf.kind
    sourceSize := rf.sourceSize, sliceBase := rf.sliceBase, slices := slices, qMean := qMeanOf slices
    complexity := rf.sourceSize * qMeanOf slices, sides := sides, faulted := false }

/-- R18 step 10: the TAKEN write. -/
def State.takenWrite (s : State) (p : Program) (rf : RecordFields) (slices : List SliceDesc) (sides : List SlotSide) :
    Cont :=
  let c := s.ctx p
  (s.atPhase (.taken (slotOf (c.takeNumber + 1) c.nextRecord rf slices sides) rf.link)).issueRecord .intake p
    c.nextRecord 0 [takenCode]

/-- R18 step 9, R131: the entries are classified in order, up to one whose head must be read. -/
def State.classify (p : Program) (rf : RecordFields) (slices : List SliceDesc) :
    List SlotSide → List SideEntry → State → Cont
  | done, [], s => s.takenWrite p rf slices done
  | done, e :: rest, s =>
    match classifyEarly s.loading s.side.table p e with
    | some d => State.classify p rf slices (done ++ [e.classified d]) rest (s.cueMatched p d)
    | none =>
      (s.atPhase (.headRead rf slices done e rest)).issue
        (readRequest .intake (some (s.ctx p).fixed.accessKey) e.address e.headLength)

/-- R18 steps 6 to 8: the end of the slice table read. -/
def State.sliceTableReply (s : State) (p : Program) (rf : RecordFields) (r : Reply) : Cont :=
  let c := s.ctx p
  match r with
  | .failed f =>
    if c.fixed.tolerant then s.finishAtIntake p .faultTolerated rf
    else s.faultedAttempt p (faultOf .sliceTable f c.nextRecord rf.sequence 0) none
  | .done data =>
    let slices := readSlices rf.sliceCount data
    s.takeOn p fun s =>
      if !slices.all sliceValid then s.finishAtIntake p .malformed rf
      else if 1 ≤ rf.sideCount then
        (s.atPhase (.sideTable rf slices)).issue
          (readRequest .intake (some c.fixed.accessKey) rf.sideTable (16 * rf.sideCount))
      else s.takenWrite p rf slices []

/-- R18 steps 8 and 9: the end of the side table read. A side table that cannot be read sets SIDE_FAULT, a flag of the intake
(R24, log 26). -/
def State.sideTableReply (s : State) (p : Program) (rf : RecordFields) (slices : List SliceDesc) (r : Reply) : Cont :=
  match r with
  | .failed _ => (s.intakeNote p fun n => { n with sideFault := true }).takeOn p fun s => s.takenWrite p rf slices []
  | .done data => s.takeOn p fun s => s.classify p rf slices [] (readSides rf.sideCount data)

/-- R133: the end of a message head read. -/
def State.headReply (s : State) (p : Program) (rf : RecordFields) (slices : List SliceDesc) (done : List SlotSide)
    (e : SideEntry) (rest : List SideEntry) (r : Reply) : Cont :=
  match r with
  | .failed _ =>
    (s.noteSideFault p).takeOn p fun s => s.classify p rf slices (done ++ [e.classified .droppedFilter]) rest
  | .done data =>
    s.takeOn p fun s =>
      let d := classifyHead s.loading s.side.table e data
      (s.cueMatched p d).classify p rf slices (done ++ [e.classified d]) rest

/-- R18 steps 10 and 11: the end of the TAKEN write. The window and the next record address of a program that a report's holding
fault has made HELD meanwhile stay as the fault left them (R11, R17, R40); its record stays TAKEN (log 40). -/
def State.takenReply (s : State) (p : Program) (slot : Slot) (link : Long) (r : Reply) : Cont :=
  match r with
  | .failed f => s.faultedAttempt p (faultOf .recordWrite f (s.ctx p).nextRecord slot.sequence 0) none
  | .done _ =>
    if (s.ctx p).state = .held then s.nextProgram
    else
      (s.modCtx p fun c =>
        { c with window := c.window.push slot, takeNumber := c.takeNumber + 1, nextRecord := link }).tryTake p

/-- R18, R20, R22: the end of the outcome write of a finish at intake. -/
def State.finishOutcomeReply (s : State) (p : Program) (o : Outcome) (interval : Word) (rf : RecordFields) (r : Reply) :
    Cont :=
  match r with
  | .failed f => s.faultedAttempt p (faultOf .recordWrite f (s.ctx p).nextRecord rf.sequence 0) (some (o, interval))
  | .done _ => (s.atPhase (.finishState o interval rf)).issueRecord .intake p (s.ctx p).nextRecord 0 [doneCode]

/-- R17, R20: the end of the DONE write of a finish at intake. The last interval coded is the one its outcome fields carry
(R6, R22). The next record address of a program made HELD meanwhile stays (R11, R17; log 40). -/
def State.finishStateReply (s : State) (p : Program) (o : Outcome) (interval : Word) (rf : RecordFields) (r : Reply) : Cont :=
  match r with
  | .failed f => s.faultedAttempt p (faultOf .recordWrite f (s.ctx p).nextRecord rf.sequence 0) (some (o, interval))
  | .done _ =>
    if (s.ctx p).state = .held then (s.setLast p o interval).nextProgram
    else ((s.setLast p o interval).modCtx p fun c => { c with nextRecord := rf.link }).tryTake p

/-- The end of the access the intake waits for. A HALT ends the intake after the take step being performed, a failed one with
what R18 gives for it (R15, R165). That a read of a live part or a fixed part in flight at HALT has no effect, also where it fails, is
the model's DESIGN CHOICE (log 47). -/
def State.intakeStep (s : State) (r : Reply) : Cont :=
  match s.controller.intake with
  | none => (s, none)
  | some i =>
    let p := i.program
    match i.phase with
    | .live => if i.halted then (s.endHaltedIntake, none) else s.liveReply p r
    | .fixed => if i.halted then (s.endHaltedIntake, none) else s.fixedReply p r
    | .waitFinish => (s, none)
    | .abandonOutcome j => State.intakeAfter p (s.abandonReply .intake (State.intakeAbandonNote p) p false j r)
    | .abandonState j => State.intakeAfter p (s.abandonReply .intake (State.intakeAbandonNote p) p true j r)
    | .stateRead => s.stateReply p r
    | .recordRead => s.recordReply p r
    | .sliceTable rf => s.sliceTableReply p rf r
    | .sideTable rf slices => s.sideTableReply p rf slices r
    | .headRead rf slices done e rest => s.headReply p rf slices done e rest r
    | .taken slot link => s.takenReply p slot link r
    | .finishOutcome o interval rf => s.finishOutcomeReply p o interval rf r
    | .finishState o interval rf => s.finishStateReply p o interval rf r
    | .faulted info o => s.faultedReply p info o
    | .allDone => (s, none)

/-- The intake goes on while accesses are refused at once; `fuel` bounds the refusals. -/
def State.intakeRun : Nat → Cont → State
  | 0, c => c.1
  | _ + 1, (s, none) => s
  | fuel + 1, (s, some r) => State.intakeRun fuel (s.intakeStep r)

/-- More refusals than one intake can meet without waiting: per program fewer than 32. -/
def intakeFuel : Nat := 512

/-- The end of an access of the intake. -/
def State.intakeReply (s : State) (r : Reply) : State := State.intakeRun intakeFuel (s.intakeStep r)

/-- R1: intake for the interval the timer shows begins. -/
def State.beginIntake (s : State) : State :=
  State.intakeRun intakeFuel
    ((s.setController
      { s.controller with
        intake := some { interval := s.timer.number, program := 0, takes := 0, halted := false, phase := .live }
        intakeNotes := PerProgram.fill Notes.clear }).beginProgram 0)

/-! ### Finish and fault reports (R22, R23, R35, R37, R39) -/

/-- R13: the program's window is being abandoned. -/
def State.abandoning (s : State) (p : Program) : Bool :=
  (match s.controller.intake with
    | some i =>
      i.program == p &&
        match i.phase with
        | .abandonOutcome _ => true
        | .abandonState _ => true
        | _ => false
    | none => false) ||
  match s.controller.halt with
  | some (.outcome (q :: _) _ _) => q == p
  | some (.state (q :: _) _ _) => q == p
  | _ => false

/-- R39: the report names window picture A of its program. -/
def State.reportMatches (s : State) (r : Report) : Bool :=
  let w := (s.ctx r.program).window
  decide (1 ≤ w.count) && w.head == r.slot && (w.named 0).takeNumber == r.takeNumber && !s.abandoning r.program

/-- The state with a program's report being handled, or none. -/
def State.setFinish (s : State) (p : Program) (w : Option FinishWork) : State := s.modCtx p fun c => { c with finish := w }

/-- An intake or a HALT that waited for the program's finish goes on. -/
def State.finishEnded (s : State) (p : Program) : State :=
  let s1 := s.setFinish p none
  match s1.controller.halt, s1.controller.intake with
  | some (.waitFinish todo w), _ => s1.haltAdvance w todo
  | _, some i => if i.phase = .waitFinish ∧ i.program = p then State.intakeRun intakeFuel (s1.transition p) else s1
  | _, none => s1

/-- R35: A is finished. -/
def State.finishA (s : State) (p : Program) (o : Outcome) (interval : Word) : State :=
  (s.modCtx p fun c => { c with window := c.window.pop }).setLast p o interval

/-- R10: a DRAINING program whose window a finish emptied. -/
def State.offIfDrained (s : State) (p : Program) : State :=
  if (s.ctx p).state = .draining ∧ (s.ctx p).window.count = 0 then s.programOff p else s

/-- The outcome of a report; a fault report has none. -/
def ReportBody.outcome : ReportBody → Outcome
  | .finish o .. => o
  | .fault .. => .faultTolerated

/-- R22, R35: both writes succeeded. -/
def State.finishDone (s : State) (r : Report) : State :=
  ((s.finishA r.program r.body.outcome r.interval).offIfDrained r.program).finishEnded r.program

/-- R22: the FAULTED attempt after a failed write has ended: the finish stands and the program is held. -/
def State.finishHeld (s : State) (r : Report) (f : Failure) : State :=
  let slot := (s.ctx r.program).window.named 0
  ((s.finishA r.program r.body.outcome r.interval).hold r.program false
    (faultOf .recordWrite f slot.record slot.sequence 0)).finishEnded r.program

/-- R22: a write of the finish failed; one attempt to write FAULTED follows. -/
def State.finishFailed (s : State) (r : Report) (f : Failure) : State :=
  let p := r.program
  match (s.setFinish p (some { report := r, phase := .afterFailure f })).issueRecord (.finish p) p
    ((s.ctx p).window.named 0).record 0 [faultedCode] with
  | (s1, none) => s1
  | (s1, some _) => s1.finishHeld r f

/-- R22: the outcome fields are written; the state follows. -/
def State.finishStateWrite (s : State) (r : Report) : State :=
  let p := r.program
  match (s.setFinish p (some { report := r, phase := .state })).issueRecord (.finish p) p
    ((s.ctx p).window.named 0).record 0 [doneCode] with
  | (s1, none) => s1
  | (s1, some (.failed f)) => s1.finishFailed r f
  | (s1, some (.done _)) => s1

/-- R22: the outcome fields of a finish. -/
def State.finishOutcomeWrite (s : State) (r : Report) (o : Outcome) (pass size cells meanQ : Nat) : State :=
  let p := r.program
  let slot := (s.ctx p).window.named 0
  match (s.setFinish p (some { report := r, phase := .outcome })).issueRecord (.finish p) p slot.record 0x30
    (outcomeBytes o pass size cells meanQ r.interval slot.sides) with
  | (s1, none) => s1
  | (s1, some (.failed f)) => s1.finishFailed r f
  | (s1, some (.done _)) => s1

/-- R23, R37: the FAULTED write of a STRICT content fault has ended. -/
def State.strictEnded (s : State) (r : Report) (f : Failure) (pass : Nat) (written : Bool) : State :=
  let p := r.program
  let slot := (s.ctx p).window.named 0
  let s1 := if written then s.modCtx p fun c => { c with window := c.window.markFaulted } else s
  (s1.hold p false (faultOf .sliceData f slot.record slot.sequence pass)).finishEnded p

/-- R23: a STRICT content fault report: FAULTED is written to A's record. -/
def State.strictWrite (s : State) (r : Report) (f : Failure) (pass : Nat) : State :=
  let p := r.program
  match (s.setFinish p (some { report := r, phase := .strict })).issueRecord (.finish p) p
    ((s.ctx p).window.named 0).record 0 [faultedCode] with
  | (s1, none) => s1
  | (s1, some _) => s1.strictEnded r f pass false

/-- The end of a write of a report's handling. -/
def State.finishReply (s : State) (p : Program) (reply : Reply) : State :=
  match (s.ctx p).finish with
  | none => s
  | some w =>
    match w.phase, reply with
    | .outcome, .done _ => s.finishStateWrite w.report
    | .outcome, .failed f => s.finishFailed w.report f
    | .state, .done _ => s.finishDone w.report
    | .state, .failed f => s.finishFailed w.report f
    | .afterFailure f, _ => s.finishHeld w.report f
    | .strict, r =>
      match w.report.body with
      | .fault f pass => s.strictEnded w.report f pass (match r with | .done _ => true | .failed _ => false)
      | .finish .. => s.setFinish p none

/-- The first report that `q` names, and the reports without it. -/
def takeReport (q : Report → Bool) : List Report → Option (Report × List Report)
  | [] => none
  | r :: rest =>
    if q r then some (r, rest)
    else
      match takeReport q rest with
      | none => none
      | some (x, rest') => some (x, r :: rest')

/-- A finish report of a program. -/
def Report.isFinish (p : Program) (r : Report) : Bool :=
  r.program == p &&
    match r.body with
    | .finish .. => true
    | .fault .. => false

/-- A STRICT content fault report of a program. -/
def Report.isFault (p : Program) (r : Report) : Bool :=
  r.program == p &&
    match r.body with
    | .finish .. => false
    | .fault .. => true

/-- R23: a report is handled, or discarded where it does not match. -/
def State.handleReport (s : State) (r : Report) : State :=
  if s.reportMatches r then
    match r.body with
    | .finish o pass size cells meanQ _ => s.finishOutcomeWrite r o pass size cells meanQ
    | .fault f pass => s.strictWrite r f pass
  else s

/-- The controller takes the first report that `q` names, unless it is still handling one of the program (log 16). -/
def State.takeReportOf (s : State) (p : Program) (q : Report → Bool) : State :=
  match (s.ctx p).finish, takeReport q s.controller.reports with
  | none, some (r, rest) => (s.setController { s.controller with reports := rest }).handleReport r
  | _, _ => s

/-- FINISH_REPORT (R22, R23, R35). -/
def execFinishReport (program : Program) (s : State) : Host.Outcome State Fault Refusal :=
  .next (s.takeReportOf program (Report.isFinish program))

/-- FAULT_REPORT (R23, R37, R88). -/
def execFaultReport (program : Program) (s : State) : Host.Outcome State Fault Refusal :=
  .next (s.takeReportOf program (Report.isFault program))

end Sys2Proof.Machine
end

