-- ==== Sys2Proof/Machine/Recoder.lean ====
section
/-! DEFINITION. The recoder (04_requantization_and_recoding.md): the job queue, the passes of the two engines, the spare
pool, builds and endings, and the meanings of PASS_END, FLOOR_PASS_END and JOB_COMPLETION. -/

namespace Sys2Proof.Machine

/-! ### The parts of the recoder -/

/-- The state with another phase of one engine. -/
def State.setPhase (s : State) (e : Engine) (ph : EnginePhase) : State :=
  s.setRecoder (s.recoder.setEngine e { s.recoder.engine e with phase := ph })

/-- The state with other bytes in an engine's scratch buffer; bytes past its end are not kept (R76). -/
def State.setScratch (s : State) (e : Engine) (bytes : List Byte) : State :=
  s.setRecoder (s.recoder.setEngine e { s.recoder.engine e with scratch := bytes.take Config.scratchBytes })

/-- R83: the spare pool raised. -/
def State.giveSpare (s : State) (n : Nat) : State := s.setRecoder { s.recoder with spare := s.recoder.spare + n }

/-- R87: the figures of a program's job. -/
def State.setFigures (s : State) (p : Program) (f : JobFigures) : State :=
  s.setRecoder { s.recoder with figures := s.recoder.figures.put p (some f) }

/-- R69: the queue in descending order of budget, equal budgets in ascending order of program. -/
def insertJob (j : Job) : List Job → List Job
  | [] => [j]
  | k :: rest =>
    if k.budget < j.budget ∨ k.budget = j.budget ∧ j.program < k.program then j :: k :: rest else k :: insertJob j rest

/-- R77: the budget in bytes. -/
def Job.bytes (j : Job) : Nat := j.budget * Config.payloadBytes

/-- R39: what an engine copies from the job's window slot. -/
def sourceOf (x : Slot) : Source :=
  { sequence := x.sequence, kind := x.kind, sourceSize := x.sourceSize, sliceBase := x.sliceBase, slices := x.slices }

/-- R39, R85, R86, R88, R89: a report to the program controller. -/
def State.sendReport (s : State) (j : Job) (body : ReportBody) : State :=
  s.setController
    { s.controller with
      reports := s.controller.reports ++
        [{ program := j.program, slot := j.slot, takeNumber := j.takeNumber, interval := j.interval, body := body }] }

/-- R60, R85: a completion report to the allocator. -/
def State.sendCompletion (s : State) (j : Job) (outcome : Outcome) (size cells meanQ debt : Nat) : State :=
  s.setAllocator
    { s.allocator with
      reports := s.allocator.reports ++
        [{ program := j.program, interval := j.interval, outcome := outcome, pass := j.pass, size := size, cells := cells
           meanQ := meanQ, debt := debt }] }

/-! ### Endings (R86, R88) -/

/-- R86: a hold ending. The placeholder stays, the pages return, the spare pool takes budget − 1 and any draw, both reports
go out and the engine is idle. -/
def State.holdEnding (s : State) (e : Engine) (j : Job) (o : Outcome) : State :=
  let s1 := (s.returnPages j.pages).giveSpare (j.budget - 1 + j.draw)
  let s2 := s1.setFigures j.program { outcome := some o, pass := j.pass, cells := 1, meanQ := 0 }
  ((s2.sendReport j (.finish o j.pass 8 1 0 0)).sendCompletion j o 8 1 0 0).setPhase e .idle

/-- R88: a fault ending of a STRICT program. -/
def State.faultEnding (s : State) (e : Engine) (j : Job) (f : Failure) : State :=
  let s1 := (s.returnPages j.pages).giveSpare (j.budget - 1)
  let s2 := s1.setFigures j.program { outcome := none, pass := j.pass, cells := 1, meanQ := 0 }
  (s2.sendReport j (.fault f j.pass)).setPhase e .idle

/-! ### Passes (R71, R72, R77 to R80) -/

/-- R72 step 1: the read of the next slice, with the program's access key. After the last slice the pass has ended. -/
def State.readSlice (s : State) (e : Engine) (j : Job) (w : PassWork) : Cont :=
  match w.source.slices[w.next]? with
  | none => (s.setPhase e (.passEnded j w), none)
  | some d =>
    (s.setPhase e (.coding j w)).issue
      (readRequest (.engine e) (some (s.ctx j.program).fixed.accessKey) (w.source.sliceBase + BitVec.ofNat 64 d.offset)
        d.length)

/-- R72: a pass begins: the picture header is written and the first slice read. The mean q_out of the header is written when
the pass has ended (R74). -/
def State.startPass (s : State) (e : Engine) (j : Job) (pass : Nat) (source : Source) (quants : List Nat) (cutoff : Nat)
    (limits : List (Nat × StopReason)) : Cont :=
  let header := pictureHeader source.sequence (kindCode source.kind) source.slices.length 0 pass
  (s.setScratch e header).readSlice e { j with pass := pass }
    { source := source, quants := quants, cutoff := cutoff, limits := limits, next := 0, size := header.length
      stopped := none }

/-- R71: an idle engine takes the job at the head of the queue and begins pass 1. -/
def State.takeJob (s : State) (e : Engine) : Cont :=
  match (s.recoder.engine e).phase, s.recoder.queue with
  | .idle, j :: rest =>
    let source := sourceOf ((s.ctx j.program).window.slots[j.slot])
    (s.setRecoder { s.recoder with queue := rest }).startPass e j 1 source
      (pass1Quants source.slices source.sourceSize j.budget) 64 []
  | _, _ => (s, none)

/-- R88: a content fault on the job. -/
def State.contentFault (s : State) (e : Engine) (j : Job) (f : Failure) : Cont :=
  if (s.ctx j.program).fixed.tolerant then (s.holdEnding e j .faultTolerated).takeJob e
  else (s.faultEnding e j f).takeJob e

/-- R72, R79: a slice's bytes are parsed and coded; the pass goes on, stops or ends. -/
def State.codeNext (s : State) (e : Engine) (j : Job) (w : PassWork) (data : List Byte) : Cont :=
  match w.source.slices[w.next]? with
  | none => (s, none)
  | some d =>
    match parseSlice d data with
    | none => (s.holdEnding e j .malformed).takeJob e
    | some blocks =>
      match codeSlice (s.recoder.codeTable.getD []) s.settingsD.deadZone w.cutoff w.limits w.size w.next d
        (w.quants.getD w.next 0) blocks with
      | .error reason => (s.setPhase e (.passEnded j { w with stopped := some reason }), none)
      | .ok bytes =>
        (s.setScratch e ((s.recoder.engine e).scratch ++ bytes)).readSlice e j
          { w with next := w.next + 1, size := w.size + bytes.length }

/-- The end of a slice read. -/
def State.engineStep (s : State) (e : Engine) (r : Reply) : Cont :=
  match (s.recoder.engine e).phase, r with
  | .coding j w, .done data => s.codeNext e j w data
  | .coding j _, .failed f => s.contentFault e j f
  | _, _ => (s, none)

/-- The engine goes on while its slice reads are refused at once: each refusal ends a job. -/
def State.engineRun (e : Engine) : Nat → Cont → State
  | 0, c => c.1
  | _ + 1, (s, none) => s
  | fuel + 1, (s, some r) => State.engineRun e fuel (s.engineStep e r)

/-- The engine goes on for as long as its job and those waiting in the queue can meet refusals. -/
def State.engineGoes (e : Engine) (c : Cont) : State := State.engineRun e (c.1.recoder.queue.length + 1) c

/-- The end of an access of an engine. -/
def State.engineReply (s : State) (e : Engine) (r : Reply) : State := State.engineGoes e (s.engineStep e r)

/-- R71: an engine takes a job if it is idle. -/
def State.engineTakes (s : State) (e : Engine) : State := State.engineGoes e (s.takeJob e)

/-- R86: a hold ending after which the engine takes its next job. -/
def State.endsHeld (s : State) (e : Engine) (j : Job) (o : Outcome) : State := (s.holdEnding e j o).engineTakes e

/-! ### Acceptance and the build (R81 to R84) -/

/-- R81: a result that fits the budget and the room. -/
def accepted (j : Job) (w : PassWork) : Bool :=
  w.stopped.isNone && decide (w.size ≤ j.bytes) && decide (w.size ≤ j.room)

/-- R84 step 2: the pages a build requests. -/
def buildPages (budget draw debt : Nat) : Nat :=
  ceilDiv (budget + draw) Config.placesPerPage + ceilDiv debt Config.placesPerPage

/-- R84 steps 1 and 2: the key and the pages of an accepted result. The mean q_out goes into the picture header (R74). -/
def State.startBuild (s : State) (e : Engine) (j : Job) (w : PassWork) : State :=
  let p := j.program
  let meanQ := weightedMean w.source.slices w.quants
  let s1 := s.setScratch e ((s.recoder.engine e).scratch.set 6 (BitVec.ofNat 8 meanQ))
  let key := s1.keys.buildKey p
  if (s1.ctx p).fixed.scrambled ∧ key = none then s1.endsHeld e j .keyMissing
  else
    match s1.store.request (buildPages j.budget j.draw j.debt) with
    | none => s1.endsHeld e j .storeFull
    | some (pages, store) =>
      (s1.setStore store).setPhase e
        (.building { j with pages := pages }
          { sequence := w.source.sequence, size := w.size, meanQ := meanQ
            key := if (s1.ctx p).fixed.scrambled then key else none })

/-- R78: pass 2 begins. -/
def State.startPass2 (s : State) (e : Engine) (j : Job) (w : PassWork) : State :=
  State.engineGoes e
    (s.startPass e j 2 w.source (pass2Quants w.quants w.size j.budget) (pass2Cutoff w.size j.budget)
      [(Nat.min j.bytes j.room, .notAccepted)])

/-- R79: the limits of a floor pass that begins now, the room first. -/
def State.floorLimits (s : State) (j : Job) : List (Nat × StopReason) :=
  [(j.room, .bufferHold), ((j.budget + Config.debtLimit + s.recoder.spare) * Config.payloadBytes, .overrun)]

/-- R80: the floor pass begins. -/
def State.startFloor (s : State) (e : Engine) (j : Job) (w : PassWork) : State :=
  State.engineGoes e
    (s.startPass e j 3 w.source (floorQuants w.source.slices) 1 (s.floorLimits j))

/-- PASS_END (R77, R80, R81): pass 1 or pass 2 of an engine ends. Without such a pass nothing ends (log 3). -/
def execPassEnd (engine : Engine) (s : State) : Host.Outcome State Fault Refusal :=
  match (s.recoder.engine engine).phase with
  | .passEnded j w =>
    if j.pass = 3 then .next s
    else if accepted j w then .next (s.startBuild engine j w)
    else if j.pass = 1 then .next (s.startPass2 engine j w)
    else if w.source.kind = .bi then .next (s.endsHeld engine j .substituted)
    else .next (s.startFloor engine j w)
  | _ => .next s

/-- R82: the offer of a floor result against the spare pool: its draw and its debt, or the outcome that refuses it. -/
def floorOffer (budget room spare size : Nat) : Except Outcome (Nat × Nat) :=
  if room < size then .error .bufferHold
  else
    let overrun := ceilDiv size Config.payloadBytes - budget
    let draw := Nat.min overrun spare
    if overrun - draw ≤ Config.debtLimit then .ok (draw, overrun - draw) else .error .discardedOverrun

/-- FLOOR_PASS_END (R79, R82): a pass that stopped early is refused with the reason its limit names, and any other result is
offered. Without a floor pass that has ended nothing ends (log 3). -/
def execFloorPassEnd (engine : Engine) (s : State) : Host.Outcome State Fault Refusal :=
  match (s.recoder.engine engine).phase with
  | .passEnded j w =>
    if j.pass = 3 then
      match w.stopped with
      | some .bufferHold => .next (s.endsHeld engine j .bufferHold)
      | some _ => .next (s.endsHeld engine j .discardedOverrun)
      | none =>
        match floorOffer j.budget j.room s.recoder.spare w.size with
        | .error o => .next (s.endsHeld engine j o)
        | .ok (draw, debt) =>
          .next ((s.setRecoder { s.recoder with spare := s.recoder.spare - draw }).startBuild engine
            { j with draw := draw, debt := debt } w)
    else .next s
  | _ => .next s

/-! ### Completion (R85, R118 to R120) -/

/-- R118: cells written to pages in order, 20 to a page: the place of each cell and the list entries that name them. -/
def placeCells (pages : List Nat) (cells : List (List Byte)) : List (Nat × List Byte) :=
  cells.zipIdx.map fun x =>
    (placeIndex (pages.getD (x.2 / Config.placesPerPage) 0) (x.2 % Config.placesPerPage), x.1)

/-- The list entries of placed cells. -/
def placedEntries (pages : List Nat) (n : Nat) : List Entry :=
  (List.range n).map fun i => .stored (pages.getD (i / Config.placesPerPage) 0) (i % Config.placesPerPage)

/-- How a completed job's cells and pages divide (R82, R118, R120). -/
structure JobCells where
  now : List (List Byte)
  later : List (List Byte)
  nowPages : List Nat
  laterPages : List Nat
  unwritten : List Nat
  deriving DecidableEq, Repr

/-- R84 step 3, R118: the cells of a build. The first budget + draw of them stand in this list, the rest is deferred; pages no
cell is written to are left over. -/
def divideCells (budget draw : Nat) (pages : List Nat) (cells : List (List Byte)) : JobCells :=
  let now := cells.take (budget + draw)
  let later := cells.drop (budget + draw)
  let mine := pages.take (ceilDiv (budget + draw) Config.placesPerPage)
  let theirs := pages.drop (ceilDiv (budget + draw) Config.placesPerPage)
  let usedNow := ceilDiv now.length Config.placesPerPage
  let usedLater := ceilDiv later.length Config.placesPerPage
  { now := now, later := later, nowPages := mine.take usedNow, laterPages := theirs.take usedLater
    unwritten := mine.drop usedNow ++ theirs.drop usedLater }

/-- R85 steps 1 to 3: the cells are written and linked, the deferred ones handed over, the unwritten pages returned. -/
def State.linkCells (s : State) (j : Job) (c : JobCells) : State :=
  let s1 := s.setStore
    { s.store with
      cells := s.store.cells.writeAll (placeCells c.nowPages c.now ++ placeCells c.laterPages c.later) }
  let line := s1.line.linkJob j.program j.count (placedEntries c.nowPages c.now.length) c.nowPages
  (s1.setLine (line.defer j.program (placedEntries c.laterPages c.later.length) c.laterPages)).returnPages c.unwritten

/-- The cells of a build in order (R84 step 3). -/
def State.buildCells (s : State) (e : Engine) (j : Job) (b : Build) : List (List Byte) :=
  pictureCells j.program j.count (j.interval + 1) b.sequence b.key 0
    (payloads ((s.recoder.engine e).scratch.take b.size))

/-- R85: a job's completion, before the engine takes its next job. -/
def State.completeJob (s : State) (e : Engine) (j : Job) (b : Build) : State :=
  let cells := s.buildCells e j b
  let n := cells.length
  let s1 := s.linkCells j (divideCells j.budget j.draw j.pages cells)
  let s2 := s1.setRecoder
    { s1.recoder with
      counters := s1.recoder.counters.put j.program (j.count + BitVec.ofNat 4 n)
      spare := s1.recoder.spare + (j.budget - n) }
  let s3 := s2.setFigures j.program { outcome := some .ok, pass := j.pass, cells := n, meanQ := b.meanQ }
  ((s3.sendReport j (.finish .ok j.pass b.size n b.meanQ j.debt)).sendCompletion j .ok b.size n b.meanQ j.debt).setPhase e
    .idle

/-- JOB_COMPLETION (R85). Without a job being built nothing completes (log 3). -/
def execJobCompletion (engine : Engine) (s : State) : Host.Outcome State Fault Refusal :=
  match (s.recoder.engine engine).phase with
  | .building j b => .next ((s.completeJob engine j b).engineTakes engine)
  | _ => .next s

/-! ### The boundary and HALT (R83, R89, R90) -/

/-- R89: the LATE ending of one job, apart from its pages. -/
def State.lateJob (s : State) (j : Job) : State :=
  (s.setFigures j.program { outcome := some .late, pass := j.pass, cells := 1, meanQ := 0 }).sendReport j
    (.finish .late j.pass 8 1 0 0)

/-- R89: every unended job is LATE; the boundary gives back the pages. -/
def State.lateJobs (s : State) : State := (s.recoder.jobs.foldl State.lateJob s).dropJobs

/-- R68, R67: START's values; the code table is the one this START has kept. The scratch buffers, which R68 leaves not defined
at START, keep their bytes: the model's DESIGN CHOICE (log 9). -/
def Recoder.started (r : Recoder) : Recoder :=
  { Recoder.reset with
    codeTable := r.codeTable
    re0 := { r.re0 with phase := .idle }
    re1 := { r.re1 with phase := .idle } }

end Sys2Proof.Machine
end

