-- ==== Sys2Proof/Machine/Rounds.lean ====
section
/-! DEFINITION. The coding round: the allocation's inputs and completion (03_rate_allocation.md), the completion reports, the
boundary, and the meanings of INTAKE_COMPLETE, ALLOCATION_COMPLETE, COMPLETION_REPORT and BOUNDARY. -/

namespace Sys2Proof.Machine

/-! ### What an allocation reads (R44 to R49) -/

/-- The groups of R45. -/
inductive Group where
  | coding | hold | none
  deriving DecidableEq, Repr

/-- R45: a program's group, from its state after intake, its window count and its depth. -/
def groupOf (state : ProgramState) (count depth : Nat) : Group :=
  match state with
  | .off => .none
  | .priming => if depth ≤ count then .coding else .none
  | .running => if depth ≤ count then .coding else .hold
  | .draining => if 1 ≤ count then .coding else .none
  | .held => .hold

/-- A program's group at this moment. -/
def State.group (s : State) (p : Program) : Group :=
  groupOf (s.ctx p).state (s.ctx p).window.count (s.ctx p).fixed.depth

/-- R48: the kind factor. -/
def Settings.kindFactor (st : Settings) : Kind → Nat
  | .key => st.kfKey
  | .pred => st.kfPred
  | .bi => st.kfBi

/-- R48, R49: what the allocation reads of a coding program. -/
def State.coder (s : State) (p : Program) : Coder :=
  let c := s.ctx p
  let a := c.window.named 0
  let live := c.live.getD
    { mode := .off, weight := 1, min := 1, max := 1, target := none, interval := 0, cueClear := false }
  { program := p, slot := c.window.head, takeNumber := a.takeNumber, sequence := a.sequence
    demand := live.weight * s.settingsD.kindFactor a.kind
      * effectiveComplexity (c.window.valid.map Slot.complexity)
    min := live.min, max := live.max
    room := roomOf c.fixed.bufferSize c.fixed.delay (s.allocator.delivered.look p) }

/-- The coding programs in ascending order. -/
def State.codingPrograms (s : State) : List Program := programs.filter fun p => s.group p = .coding

/-- The hold group with the STARVED condition (R45, R65). -/
def State.holdGroup (s : State) : List Hold :=
  (programs.filter fun p => s.group p = .hold).map fun p =>
    { program := p, starved := (s.ctx p).state = .running }

/-- R9: the PRIMING programs that have reached their depth. -/
def State.primedPrograms (s : State) : List Program :=
  s.codingPrograms.filter fun p => (s.ctx p).state = .priming

/-- R139: the queue as the join of A's carried messages of some programs leaves it, with the new dispositions. -/
def State.joinFrom (s : State) : List Program → List Message → List (Program × List SlotSide) × List Message
  | [], queue => ([], queue)
  | p :: rest, queue =>
    let c := s.ctx p
    let (sides, queue') := joinSides s.settingsD.sMax p c.fixed.accessKey 0 (c.window.named 0).sides queue
    let (others, queue'') := s.joinFrom rest queue'
    ((p, sides) :: others, queue'')

/-- R46, R140: the side reservation the side path answers. -/
def State.reservationFor (s : State) (coding : List Program) : Nat :=
  reservedCells (reserveFrom s.settingsD.sMax 0 (s.joinFrom coding s.side.queue).2).1

/-- The debts of all 16 programs (R47). -/
def State.totalDebt (s : State) : Nat := (programs.map fun p => s.allocator.debt.look p).sum

/-- R44 to R56: the results of the allocation of the open interval, from the state as intake left it. -/
def State.allocate (s : State) : Allocation :=
  allocationOf s.timer.number s.settingsD.cpi (s.reservationFor s.codingPrograms) s.totalDebt s.allocator.rotation
    (s.codingPrograms.map s.coder) s.holdGroup s.primedPrograms

/-! ### INTAKE_COMPLETE (R1, R24, R44) -/

/-- R1: the timer runs, all programs are done and every report of the jobs has been handled (log 17). -/
def State.intakeDone (s : State) : Bool :=
  s.timer.running && (s.controller.intake.any fun i => i.phase = .allDone) && s.controller.reports.isEmpty
    && programs.all fun p => (s.ctx p).finish.isNone

/-- The flags the intake set join those of the interval in which it ends (R24). -/
def State.mergeIntakeNotes (s : State) : State :=
  s.setController
    { s.controller with
      intake := none
      notes := PerProgram.tabulate fun p => (s.controller.notes.look p).join (s.controller.intakeNotes.look p)
      intakeNotes := PerProgram.fill Notes.clear }

/-- R1, R24: the intake of the interval that the latest boundary began, unless an earlier one is in flight or the drain has
ended (log 21). -/
def State.intakeAtBoundary (s : State) : State :=
  if s.controller.intake.isSome || s.control.drainEnding || s.control.device = .idle then s else s.beginIntake

/-- INTAKE_COMPLETE (R1, R24, R44): the allocation of its interval begins; a late intake is followed by the intake of the
interval the latest boundary started. Before all is done the event does not arise (log 3). -/
def execIntakeComplete (s : State) : Host.Outcome State Fault Refusal :=
  match s.controller.intake with
  | none => .next s
  | some i =>
    if s.intakeDone then
      let s1 := s.mergeIntakeNotes
      if i.interval = s.timer.number then
        .next (s1.setAllocator { s1.allocator with inFlight := some s1.allocate })
      else .next s1.intakeAtBoundary
    else .next s

/-! ### ALLOCATION_COMPLETE (R56, R9, R64, R69, R105, R139, R140) -/

/-- R9: a primed program is RUNNING. -/
def State.runPrimed (s : State) (p : Program) : State := s.modCtx p fun c => { c with state := .running }

/-- R55, R56, R64: the allocator's own results. -/
def Allocator.completed (a : Allocator) (r : Allocation) : Allocator :=
  { a with debt := PerProgram.fill 0, rotation := a.rotation + 1, inFlight := none, current := some r, reported := [] }

/-- R69: a program's next continuity count is taken and its produced cell handed to the line. -/
def State.produceCell (s : State) (p : Program) (sequence : BitVec 16) : State :=
  let count := s.recoder.counters.look p
  let s1 := s.setRecoder { s.recoder with counters := s.recoder.counters.put p (count + 1) }
  s1.setLine (s1.line.addProduced p count sequence)

/-- R69, R68: the job of a grant, with the reserved count. -/
def Grant.job (g : Grant) (interval : Word) (count : BitVec 4) : Job :=
  { program := g.program, interval := interval, slot := g.slot, takeNumber := g.takeNumber, budget := g.budget
    room := g.room, count := count, pass := 0, draw := 0, debt := 0, pages := [] }

/-- R69: a grant's job joins the queue and its placeholder the building list. -/
def State.grantJob (interval : Word) (s : State) (g : Grant) : State :=
  let s1 := s.setRecoder
    { s.recoder with queue := insertJob (g.job interval (s.recoder.counters.look g.program)) s.recoder.queue }
  s1.produceCell g.program (g.sequence.setWidth 16)

/-- R69, R65: a hold grant's cell. -/
def State.grantHold (s : State) (h : Hold) : State := s.produceCell h.program 0

/-- R41, R139: a changed disposition in A's slot. -/
def Window.setSides (w : Window) (sides : List SlotSide) : Window :=
  { w with slots := w.slots.set w.head.val { w.named 0 with sides := sides } w.head.isLt }

/-- R41: the dispositions of one program's join. -/
def State.storeSides (s : State) (x : Program × List SlotSide) : State :=
  s.modCtx x.1 fun c => { c with window := c.window.setSides x.2 }

/-- R139, R140: the join and the reservation. -/
def State.joinAndReserve (s : State) (coding : List Program) : State :=
  let (sides, queue) := s.joinFrom coding s.side.queue
  let (moved, left) := reserveFrom s.settingsD.sMax 0 queue
  (sides.foldl State.storeSides s).setSide
    { s.side with queue := left, reserved := moved.map fun m => { message := m, state := .waiting } }

/-- The results of a completed allocation taken up by every block, in an order that lets the status writes see the cleared
debts and the parity decision (R56). -/
def State.applyAllocation (s : State) (a : Allocation) : State :=
  let s1 := a.primed.foldl State.runPrimed s
  let s2 := s1.setAllocator (s1.allocator.completed a)
  let s3 := a.holds.foldl State.grantHold (a.grants.foldl (State.grantJob a.interval) s2)
  let s4 := s3.setRecoder { s3.recoder with spare := a.seed }
  let s5 := s4.joinAndReserve (a.grants.map Grant.program)
  s5.setKeys (s5.keys.decideParities (fun p => (s5.ctx p).state ≠ .off) (a.interval + 1))

/-- R6: the status writes that begin with it. -/
def State.startRoundStatus (s : State) : State :=
  (s.setController { s.controller with statusSeen := true }).startStatus

/-- R71, R141: the jobs and the side builds that begin with it. -/
def State.startRoundWork (s : State) : State := ((s.engineTakes .re0).engineTakes .re1).nextSideBuild

/-- ALLOCATION_COMPLETE (R56). Without an allocation in flight none completes (log 3). -/
def execAllocationComplete (s : State) : Host.Outcome State Fault Refusal :=
  match s.allocator.inFlight with
  | none => .next s
  | some a => .next ((s.applyAllocation a).startRoundStatus).startRoundWork

/-- R57, R89: an allocation-complete event that falls together with the boundary and is taken first: the jobs exist for that
instant, and no engine takes one (log 39). Without an allocation in flight none completes. -/
def State.completeAtBoundary (s : State) : State :=
  match s.allocator.inFlight with
  | none => s
  | some a => (s.applyAllocation a).startRoundStatus

/-! ### COMPLETION_REPORT (R60, R63) -/

/-- The first completion report of a program, and the reports without it. -/
def takeCompletion (p : Program) : List CompletionReport → Option (CompletionReport × List CompletionReport)
  | [] => none
  | r :: rest =>
    if r.program = p then some (r, rest)
    else
      match takeCompletion p rest with
      | none => none
      | some (x, rest') => some (x, r :: rest')

/-- R60: the report belongs to a job of the open interval. -/
def Allocator.isCurrent (a : Allocator) (r : CompletionReport) : Bool :=
  a.isOpen && a.current.any fun c => c.interval = r.interval

/-- R59, R60: an entry is appended to a program's delivered list. -/
def State.append (s : State) (p : Program) (size : Nat) : State :=
  s.setAllocator
    { s.allocator with
      delivered := s.allocator.delivered.modify p (appendDelivered (s.ctx p).fixed.delay · size) }

/-- R60, R63: a completion of the open interval. -/
def State.takeCompletionReport (s : State) (r : CompletionReport) : State :=
  let s1 := s.append r.program r.size
  s1.setAllocator
    { s1.allocator with debt := s1.allocator.debt.put r.program r.debt, reported := r.program :: s1.allocator.reported }

/-- COMPLETION_REPORT (R60, R63): a report for a closed interval is ignored. -/
def execCompletionReport (program : Program) (s : State) : Host.Outcome State Fault Refusal :=
  match takeCompletion program s.allocator.reports with
  | none => .next s
  | some (r, rest) =>
    let s1 := s.setAllocator { s.allocator with reports := rest }
    if s1.allocator.isCurrent r then .next (s1.takeCompletionReport r) else .next s1

/-! ### BOUNDARY (R175, R181) -/

/-- R61: the programs that get an entry of 8 at the boundary. -/
def Allocator.unreported (a : Allocator) : List Program :=
  match a.current with
  | none => []
  | some c =>
    ((c.grants.map Grant.program).filter fun p => !a.reported.contains p) ++ c.holds.map Hold.program

/-- R61, R85: a completion taken before the boundary is one of the interval that closes, also where COMPLETION_REPORT has not
yet brought its report: the allocator takes every such report before it looks for unreported jobs (log 19). -/
def State.takeSentReports (s : State) : State :=
  (s.allocator.reports.filter s.allocator.isCurrent).foldl State.takeCompletionReport
    (s.setAllocator { s.allocator with reports := s.allocator.reports.filter fun r => !s.allocator.isCurrent r })

/-- R57, R61, R62, R64: the allocator's boundary work but for the opening of the next interval. -/
def State.closeInterval (s : State) : State :=
  let s0 := s.takeSentReports
  let s1 := s0.setAllocator { s0.allocator with inFlight := none }
  let s2 := s1.allocator.unreported.foldl (fun s p => s.append p 8) s1
  if s2.allocator.current.isNone then s2.setAllocator { s2.allocator with debt := PerProgram.fill 0 } else s2

/-- R62 step 5: the next interval opens. -/
def State.openInterval (s : State) : State :=
  s.setAllocator { s.allocator with current := none, reported := [], isOpen := true }

/-- R181: the programs of the sections, from first to last and round. -/
def sectionPrograms (first last : Program) : List Program :=
  (List.range ((last - first).val + 1)).map fun i => first + Fin.ofNat 16 i

/-- R181: one section. `line` are the figures the line hands over at the boundary. -/
def State.sectionOf (s : State) (line : LineFigures) (p : Program) : SectionFigures :=
  let grant := s.allocator.current.bind fun a => a.grants.find? fun g => g.program = p
  let starved := s.allocator.current.any fun a => a.holds.any fun h => h.program = p && h.starved
  let job := s.recoder.figures.look p
  { program := p
    state := (s.ctx p).state
    outcome := job.bind JobFigures.outcome
    pass := job.elim 0 JobFigures.pass
    budget := grant.elim 0 Grant.budget
    cells := job.elim 0 JobFigures.cells
    meanQ := job.elim 0 JobFigures.meanQ
    debt := s.allocator.debt.look p
    flags := sectionFlags (s.controller.notes.look p) (grant.elim false Grant.tight) (grant.elim false Grant.pinned)
      starved (s.side.faultNote.look p) (s.side.cueNote.look p) (s.keys.records.look p).switchHeld (line.discards.look p)
    delivered := (s.allocator.delivered.look p).sum }

/-- R181: the figures of the closing interval. `spare` is the spare pool at its end (R83). -/
def State.gatherFigures (s : State) (line : LineFigures) (spare : Nat) (endsDrain : Bool) : Figures :=
  let a := s.allocator.current
  { interval := s.timer.number
    nulls := line.nulls
    pool := a.elim 0 Allocation.pool
    reserve := a.elim 0 Allocation.reserve
    spare := spare
    shortfall := line.shortfall
    correctable := s.store.correctable
    freePages := line.freePages
    flags := headerFlags (a.elim false Allocation.scaled) a.isNone s.store.errorNote (decide (0 < line.shortfall))
    sections := (sectionPrograms s.settingsD.firstProgram s.settingsD.lastProgram).map (s.sectionOf line)
    endsDrain := endsDrain }

/-- R181: every note and count handed over at the boundary is cleared. -/
def State.clearFigures (s : State) : State :=
  let s1 := s.setController { s.controller with notes := PerProgram.fill Notes.clear }
  let s2 := s1.setSide { s1.side with faultNote := PerProgram.fill false, cueNote := PerProgram.fill false }
  let s3 := s2.setStore { s2.store with correctable := 0, errorNote := false }
  s3.setRecoder { s3.recoder with figures := PerProgram.fill none }

/-- R123, R150: the store takes the return of the sending list and those of the LATE jobs in the order `lineFirst` gives. -/
def State.swapLists (s : State) (lineFirst : Bool) (jobs : List Job) : State × LineFigures :=
  if lineFirst then
    let (s1, figures) := s.swapLine
    (s1.returnJobs jobs, figures)
  else (s.returnJobs jobs).swapLine

/-- R176: the boundary ends the drain. -/
def State.drainEnds (s : State) : Bool :=
  s.control.device = .draining && s.control.notice && !s.control.drainEnding && s.line.isEmpty
    && s.reporter.faultQueue.isEmpty

/-- R170, R176, R180: the report of the closed interval is written, or its figures are discarded while reporting is off. -/
def State.reportBoundary (s : State) (f : Figures) : State :=
  if s.reporter.isOn then
    ((s.setControl { s.control with drainEnding := s.control.drainEnding || f.endsDrain }).setReporter
      { s.reporter with waiting := s.reporter.waiting ++ [f] }).startReport
  else if f.endsDrain then s.enterIdle
  else s

/-- R175: the boundary work of every block. -/
def State.boundary (s : State) (lineFirst : Bool) : State :=
  let spare := s.recoder.spare
  let jobs := s.recoder.jobs
  let s1 := s.lateJobs
  let s2 := (s1.setRecoder { s1.recoder with spare := 0 }).closeInterval.endReservation
  let (s3, line) := s2.swapLists lineFirst jobs
  let figures := s3.gatherFigures line spare s3.drainEnds
  let s4 := s3.clearFigures.openInterval
  (s4.setTimer { s4.timer with number := s4.timer.number + 1 }).reportBoundary figures |>.intakeAtBoundary

/-- BOUNDARY (R175): the timer runs in RUNNING and DRAINING; a stopped timer does not expire (log 3). An allocation-complete
event that falls together with it may be taken first (R57). -/
def execBoundary (event : BoundaryEvent) (s : State) : Host.Outcome State Fault Refusal :=
  if s.timer.running then
    .next ((if event.allocationFirst then s.completeAtBoundary else s).boundary event.lineFirst)
  else .next s

end Sys2Proof.Machine
end

