-- ==== Sys2Proof/Machine/Control.lean ====
section
/-! DEFINITION. The control unit (10_control_reporting_and_events.md): the handling of a CONTROL write, and the meanings of
the commands and of their ends. -/

namespace Sys2Proof.Machine

/-! ### A write to CONTROL (R172) -/

/-- R172: the device states a command is accepted in. HALT and RESET are taken in every case. -/
def acceptedIn : CommandName → DeviceState → Bool
  | .start, d => d = .idle
  | .stop, d => d = .running
  | .halt, _ => true
  | .loadFilters, d => d = .idle ∨ d = .running ∨ d = .draining
  | .reloadRegions, d => d = .running ∨ d = .draining
  | .testPages, d => d = .idle
  | .probe, d => d = .idle ∨ d = .running ∨ d = .draining
  | .reset, _ => true

/-- R172: a CONTROL write that is not ignored clears CMD_IGNORED. -/
def State.notIgnored (s : State) : State := s.setControl { s.control with ignored := false }

/-- R172: a write ignored because a command is in flight. -/
def State.ignoreCommand (s : State) : State := s.setControl { s.control with ignored := true }

/-- R172: the command becomes the command in flight. -/
def State.accept (s : State) (c : CommandName) : State := s.setControl { s.control with ignored := false, inFlight := some c }

/-- R172: the cases of a CONTROL write for a command other than HALT and RESET; `run` is what acceptance begins. -/
def State.command (s : State) (c : CommandName) (run : State → State) : State :=
  if s.control.inFlight.isSome then s.ignoreCommand
  else if acceptedIn c s.control.device then run (s.accept c)
  else s.notIgnored.complete (some c) .wrongState

/-- BAD_COMMAND (R172); while a command is in flight it is ignored like any other (log 29). -/
def execBadCommand (_code : Byte) (s : State) : Host.Outcome State Fault Refusal :=
  if s.control.inFlight.isSome then .next s.ignoreCommand
  else .next (s.notIgnored.complete none .badCommand)

/-- The state with another device state. -/
def State.setDevice (s : State) (d : DeviceState) : State := s.setControl { s.control with device := d }

/-! ### START (R173, R174) -/

/-- The state with another step of START. -/
def State.setStart (s : State) (w : StartWork) : State := s.setControl { s.control with start := some w }

/-- START has ended with a result; START_COMPLETE gives it. -/
def State.startEnds (s : State) (r : CmdResult) : State := s.setStart (.ended r)

/-- R173: a table read of START; a refused one ends START with DIRECTORY_ACCESS (R170). -/
def State.startRead (s : State) (step : StartStep) (directory : Long) (key : Option Byte) (addr : Long) (length : Nat) :
    State :=
  match (s.setStart (.reading step directory)).issue (readRequest .start key addr length) with
  | (s1, none) => s1
  | (s1, some _) => s1.startEnds .directoryAccess

/-- R171, R173 steps 1 and 2. -/
def State.startRun (s : State) : State :=
  let d := s.control.directory
  if alignedAddress d then (s.setDevice .starting).startRead .directory d none d 96
  else (s.setDevice .starting).startEnds .directoryAccess

/-- START (R172, R173). -/
def execStart (s : State) : Host.Outcome State Fault Refusal := .next (s.command .start State.startRun)

/-- R173 step 3: the settings are checked and kept; the region table follows. -/
def State.startSettings (s : State) (directory : Long) (data : List Byte) : State :=
  let settings := readSettings directory data
  if settingsValid data settings then
    (s.setControl { s.control with settings := some settings }).startRead .regions directory none settings.regionTable 192
  else s.startEnds .badConfig

/-- R162, R173 step 4: the region table comes into force; the code table follows, checked against it. -/
def State.startRegions (s : State) (directory : Long) (data : List Byte) : State :=
  match readRegions data with
  | none => s.startEnds .tableInvalid
  | some t =>
    (s.setLink { s.link with regions := some t }).startRead .codes directory (some 0) s.settingsD.codeTable 520

/-- R67, R173 step 5: a code table that passes is kept, one that fails leaves none. -/
def State.startCodes (s : State) (directory : Long) (data : List Byte) : State :=
  match readCodeTable data with
  | none => (s.setRecoder { s.recoder with codeTable := none }).startEnds .tableInvalid
  | some t =>
    (s.setRecoder { s.recoder with codeTable := some t }).startRead .filters directory (some 0) s.settingsD.filterTable 496

/-- R137, R173 step 6. -/
def State.startFilters (s : State) (data : List Byte) : State :=
  match readFilterTable data with
  | none => s.startEnds .tableInvalid
  | some t => (s.setSide { s.side with table := some t }).startEnds .ok

/-- The end of a table read of START. A failed read leaves the code table and filter table of an earlier START as they were, of
which R67 and R173 say nothing: the model's DEDUCED choice (log 30). -/
def State.startReply (s : State) (r : Reply) : State :=
  match s.control.start, r with
  | some (.reading _ _), .failed _ => s.startEnds .directoryAccess
  | some (.reading .directory d), .done data => s.startSettings d data
  | some (.reading .regions d), .done data => s.startRegions d data
  | some (.reading .codes d), .done data => s.startCodes d data
  | some (.reading .filters _), .done data => s.startFilters data
  | _, _ => s

/-- R15, R31: a program context at START: the values of reset, with the take number and the slot contents kept. -/
def ProgramCtx.started (c : ProgramCtx) : ProgramCtx :=
  { ProgramCtx.reset with window := c.window.started, takeNumber := c.takeNumber }

/-- R15: the controller at START. -/
def Controller.started (c : Controller) : Controller :=
  { Controller.reset with
    programs := PerProgram.tabulate fun p => (c.programs.look p).started
    statusSeen := c.statusSeen }

/-- Work of the last run that START ends: intake, HALT, status and record writes. -/
def Agent.isRun : Agent → Bool
  | .intake => true
  | .halt => true
  | .status => true
  | .finish _ => true
  | .engine _ => true
  | .side => true
  | .report => true
  | .faultRecord => true
  | _ => false

/-- R174: every block's run state, then the timer and the line. -/
def State.initRun (s : State) : State :=
  let s1 := s.dropAccesses Agent.isRun
  { s1 with
    timer := { period := s1.settingsD.period, number := 0, running := true }
    controller := s1.controller.started
    allocator := { Allocator.reset with isOpen := true }
    recoder := s1.recoder.started
    keys := s1.keys.started
    side := s1.side.started
    store := s1.store.rebuilt s1.store.retired
    line := Line.started
    reporter := { Reporter.reset with isOn := true } }

/-- R173, R174: START's end. -/
def State.startFinish (s : State) (r : CmdResult) : State :=
  let s1 := s.setControl { s.control with start := none, notice := false, drainEnding := false }
  if r = .ok then (((s1.initRun).setDevice .running).complete (some .start) .ok).beginIntake
  else (s1.setDevice .idle).complete (some .start) r

/-- START_COMPLETE (R173, R174). While START still reads, or without one, it does not complete (log 3). -/
def execStartComplete (s : State) : Host.Outcome State Fault Refusal :=
  match s.control.start with
  | some (.ended r) => .next (s.startFinish r)
  | _ => .next s

/-! ### STOP (R176) -/

/-- R176: the device drains; with every program OFF the notice is given at once. -/
def State.stopRun (s : State) : State :=
  ((s.setControl { s.control with device := .draining, notice := false }).noticeIfAllOff).complete (some .stop) .ok

/-- STOP (R172, R176). -/
def execStop (s : State) : Host.Outcome State Fault Refusal := .next (s.command .stop State.stopRun)

/-! ### LOAD_FILTERS and RELOAD_REGIONS (R137, R163) -/

/-- The address a LOAD_FILTERS reads: the directory of the last START gives it; without one it is free (log 8). -/
def State.filterAddress (s : State) : Long × State :=
  match s.control.settings with
  | some st => (st.filterTable, s)
  | none => (Config.filterTableAddress s.freeCount, s.setFreeCount (s.freeCount + 1))

/-- R137: the read of the filter table, with the device's own key. -/
def State.loadFiltersRun (s : State) : State :=
  let (addr, s1) := s.filterAddress
  match (s1.setControl { s1.control with filterLoad := some .reading }).issue (readRequest .filterLoad (some 0) addr 496) with
  | (s2, none) => s2
  | (s2, some _) => s2.setControl { s2.control with filterLoad := some .failed }

/-- LOAD_FILTERS (R137, R138, R172). -/
def execLoadFilters (s : State) : Host.Outcome State Fault Refusal :=
  .next (s.command .loadFilters State.loadFiltersRun)

/-- A table read that has ended. -/
def Reply.table : Reply → TableRead
  | .done data => .read data
  | .failed _ => .failed

/-- The end of the filter table read of LOAD_FILTERS. -/
def State.filterReply (s : State) (r : Reply) : State := s.setControl { s.control with filterLoad := some r.table }

/-- R137: the load's result. -/
def State.loadFinish (s : State) (t : TableRead) : State :=
  let s1 := s.setControl { s.control with filterLoad := none }
  match t with
  | .read data =>
    match readFilterTable data with
    | some table => (s1.setSide { s1.side with table := some table }).complete (some .loadFilters) .ok
    | none => s1.complete (some .loadFilters) .tableInvalid
  | _ => s1.complete (some .loadFilters) .tableAccess

/-- LOAD_END (R137). While the table is still read, or without a load, it does not end (log 3). -/
def execLoadEnd (s : State) : Host.Outcome State Fault Refusal :=
  match s.control.filterLoad with
  | some (.read data) => .next (s.loadFinish (.read data))
  | some .failed => .next (s.loadFinish .failed)
  | _ => .next s

/-- R163: the region table is read again. -/
def State.reloadRun (s : State) : State :=
  ((s.setControl { s.control with regionReload := some .reading }).issue
    (readRequest .regionReload none s.settingsD.regionTable 192)).1

/-- RELOAD_REGIONS (R163, R172). -/
def execReloadRegions (s : State) : Host.Outcome State Fault Refusal :=
  .next (s.command .reloadRegions State.reloadRun)

/-- The end of the region table read of RELOAD_REGIONS. -/
def State.reloadReply (s : State) (r : Reply) : State := s.setControl { s.control with regionReload := some r.table }

/-- R163: the reload's result. -/
def State.reloadFinish (s : State) (t : TableRead) : State :=
  let s1 := s.setControl { s.control with regionReload := none }
  match t with
  | .read data =>
    match readRegions data with
    | some table => (s1.setLink { s1.link with regions := some table }).complete (some .reloadRegions) .ok
    | none => s1.complete (some .reloadRegions) .tableInvalid
  | _ => s1.complete (some .reloadRegions) .tableAccess

/-- RELOAD_END (R163). While the table is still read, or without a reload, it does not end (log 3). -/
def execReloadEnd (s : State) : Host.Outcome State Fault Refusal :=
  match s.control.regionReload with
  | some (.read data) => .next (s.reloadFinish (.read data))
  | some .failed => .next (s.reloadFinish .failed)
  | _ => .next s

/-! ### PROBE (R164) -/

/-- R164: the directory address a PROBE uses; none where it names none. -/
def State.probeDirectory (s : State) : Option Long :=
  if s.control.device = .idle then
    if alignedAddress s.control.directory then some s.control.directory else none
  else some s.settingsD.directory

/-- R164: the two cases that complete at once, or the read of the probe slot. -/
def State.probeRun (s : State) : State :=
  if s.link.regions.isNone then s.complete (some .probe) .noTable
  else
    match s.probeDirectory with
    | none => s.complete (some .probe) .directoryAccess
    | some d =>
      ((s.setControl { s.control with probe := some (.reading d) }).issue (readRequest .probe none (d + 0x40) 17)).1

/-- PROBE (R164, R172). -/
def execProbe (s : State) : Host.Outcome State Fault Refusal := .next (s.command .probe State.probeRun)

/-- R164: the probe result and the region index for a range and a key. A length of 0 is contained in no entry, as is a range
past 2^64 − 1. -/
def judgeProbe (table : List Region) (addr : Long) (length : Nat) (key : Byte) : Byte × Byte :=
  match if length = 0 then none else findRegion addr length 0 table with
  | none => (3, noIndex)
  | some (i, r) =>
    let index := BitVec.ofNat 8 i
    if r.key ≠ 0 ∧ r.key ≠ key then (2, index)
    else
      match r.rights with
      | .none => (2, index)
      | .read => (1, index)
      | .readWrite => (0, index)

/-- R164: the probe slot is read, the range judged against the table in force and the answer written. -/
def State.probeAnswer (s : State) (d : Long) (data : List Byte) : State :=
  let (result, index) :=
    judgeProbe (s.link.regions.getD []) (BitVec.ofNat 64 (leNat data 0 8)) (leNat data 8 8) (byteAt data 16)
  ((s.setControl { s.control with probe := some .writing }).issue (writeRequest .probe none (d + 0x51) [result, index])).1

/-- The end of an access of PROBE. -/
def State.probeReply (s : State) (r : Reply) : State :=
  match s.control.probe, r with
  | some (.reading d), .done data => s.probeAnswer d data
  | some (.reading _), .failed _ => s.setControl { s.control with probe := some (.ended .directoryAccess) }
  | some .writing, .done _ => s.setControl { s.control with probe := some (.ended .ok) }
  | some .writing, .failed _ => s.setControl { s.control with probe := some (.ended .directoryAccess) }
  | _, _ => s

/-- PROBE_END (R164). Before the probe slot's accesses have ended it does not end (log 3, log 23). -/
def execProbeEnd (s : State) : Host.Outcome State Fault Refusal :=
  match s.control.probe with
  | some (.ended r) => .next ((s.setControl { s.control with probe := none }).complete (some .probe) r)
  | _ => .next s

/-! ### TEST_PAGES (R124 to R127) -/

/-- The state with another test. -/
def State.setTest (s : State) (t : Option PageTest) : State := s.setStore { s.store with test := t }

/-- R125: a page is removed from where it stands and becomes the page under test. The patterns overwrite what it held, and
what they leave is stated nowhere. -/
def State.takePage (s : State) (t : PageTest) (page : Nat) : State :=
  let origin := if s.store.retired.contains page then PageOrigin.retired else .free
  s.setStore
    { s.store with
      free := s.store.free.filter fun p => p ≠ page
      retired := s.store.retired.filter fun p => p ≠ page
      residue := s.store.residue.clearPages [page]
      test := some { t with phase := .pages page origin } }

/-- R126: the result record is written at the directory address DIRECTORY holds, or not attempted. -/
def State.testRecord (s : State) (t : PageTest) : State :=
  let d := s.control.directory
  if alignedAddress d then
    ((s.setTest (some { t with phase := .writing })).issue
      (writeRequest .pageTest none (d + 0x54) (testBytes t.tested t.usable t.retired t.next))).1
  else s.setTest (some { t with phase := .ended .directoryAccess })

/-- R124: the test of an accepted TEST_PAGES. -/
def PageTest.start (first count : Nat) : PageTest :=
  { last := Nat.min (first + count - 1) 2047, tested := 0, usable := 0, retired := 0, next := first, interrupted := false
    phase := .between }

/-- R124, R178: a first page above 2047 completes at once; a count of 0 tests no page. Otherwise the first page is current, and
none is under test yet. -/
def State.testRun (first count : Nat) (s : State) : State :=
  if 2047 < first then s.complete (some .testPages) .badOperand
  else if count = 0 then (s.setDevice .testing).testRecord (PageTest.start first count)
  else (s.setDevice .testing).setTest (some (PageTest.start first count))

/-- TEST_PAGES (R124, R172, R178). -/
def execTestPages (first count : BitVec 12) (s : State) : Host.Outcome State Fault Refusal :=
  .next (s.command .testPages (State.testRun first.toNat count.toNat))

/-- R125: the verdict on a page: a good one is emptied and joins the tail of the free list, a bad one the retired set. R125
clears the places of a good page; that those of a bad page are unwritten too is the model's DESIGN CHOICE (log 10). -/
def Store.verdict (st : Store) (page : Nat) (good : Bool) : Store :=
  let cells := st.cells.clearPages [page]
  if good then { st with free := st.free ++ [page], cells := cells }
  else { st with retired := insertPage page st.retired, cells := cells }

/-- R125: the figures after a verdict. -/
def PageTest.count (t : PageTest) (page : Nat) (good : Bool) : PageTest :=
  { t with
    tested := t.tested + 1
    usable := if good then t.usable + 1 else t.usable
    retired := if good then t.retired else t.retired + 1
    next := page + 1 }

/-- R125, R126, R127: the verdict on a page, after which the next page is current or the result record is written. -/
def State.judgePage (s : State) (t : PageTest) (page : Nat) (good : Bool) : State :=
  let s1 := s.setStore (s.store.verdict page good)
  let t1 := t.count page good
  if t.interrupted || decide (t.last ≤ page) then s1.testRecord t1 else s1.setTest (some { t1 with phase := .between })

/-- PAGE_TESTED (R125, R126, R127). `begins` makes the current page the page under test, and `ends` gives the verdict; where no
`begins` has come before it, `ends` stands for the whole test of the current page (log 38). Without a page to test nothing
happens (log 3). -/
def execPageTested (event : PageStep) (s : State) : Host.Outcome State Fault Refusal :=
  match s.store.test with
  | none => .next s
  | some t =>
    match t.phase, event with
    | .between, .begins => .next (s.takePage t t.next)
    | .between, .ends good => .next ((s.takePage t t.next).judgePage t t.next good)
    | .pages page _, .ends good => .next (s.judgePage t page good)
    | _, _ => .next s

/-- R126, R127: the result a record write gives. -/
def PageTest.result (t : PageTest) : Reply → CmdResult
  | .done _ => if t.interrupted then .interrupted else .ok
  | .failed _ => .directoryAccess

/-- The end of the result record's write. -/
def State.testReply (s : State) (r : Reply) : State :=
  match s.store.test with
  | none => s
  | some t => if t.phase = .writing then s.setTest (some { t with phase := .ended (t.result r) }) else s

/-- R126, R127, R177: the test ends. In HALTING the completion of a test that HALT stopped is HALT's own; a test that had no
page left completes by itself (log 22). -/
def State.testFinish (s : State) (t : PageTest) (r : CmdResult) : State :=
  let s1 := s.setTest none
  if s.control.device = .halting then
    if t.interrupted then s1.setControl { s1.control with endedTest := some r }
    else (s1.setControl { s1.control with last := some .testPages, result := r }).raise .commandDone
  else (s1.setDevice .idle).complete (some .testPages) r

/-- TEST_END (R126, R127). Before the record's write has ended the test does not end (log 3). -/
def execTestEnd (s : State) : Host.Outcome State Fault Refusal :=
  match s.store.test with
  | none => .next s
  | some t =>
    match t.phase with
    | .ended r => .next (s.testFinish t r)
    | _ => .next s

/-! ### HALT (R177) -/

/-- The accesses that HALT ends: START, filter load, region reload, PROBE, the engines' and the side path's reads. -/
def Agent.endsAtHalt : Agent → Bool
  | .start => true
  | .filterLoad => true
  | .regionReload => true
  | .probe => true
  | .engine _ => true
  | .side => true
  | _ => false

/-- R127: HALT finds a page under test, which gets its verdict, or none under test, and no further page is tested. -/
def State.interruptTest (s : State) : State :=
  match s.store.test with
  | none => s
  | some t =>
    match t.phase with
    | .between => s.testRecord { t with interrupted := true }
    | .pages .. => s.setTest (some { t with interrupted := true })
    | _ => s

/-- R58: the allocator at HALT. -/
def Allocator.halted (a : Allocator) : Allocator := { a with debt := PerProgram.fill 0, inFlight := none, isOpen := false }

/-- R58, R139, R144: what every HALT taken clears, in IDLE too: the debts, with an allocation in flight, and the side queue with its
reservation. -/
def State.haltQueues (s : State) : State := (s.setAllocator s.allocator.halted).haltSide

/-- R177: HALT ends the command in flight in IDLE, which has no result of its own then. -/
def State.haltCommand (s : State) : State :=
  ((s.dropAccesses Agent.endsAtHalt).setControl
    { s.control with filterLoad := none, regionReload := none, probe := none }).haltQueues

/-- R177: no report ends a drain once HALT is taken. -/
def Reporter.halted (r : Reporter) : Reporter :=
  { r with
    work := r.work.map fun w => { w with figures := { w.figures with endsDrain := false } }
    waiting := r.waiting.map fun f => { f with endsDrain := false } }

/-- The phases in which an intake waits for no access. -/
def IntakePhase.waitsForAccess : IntakePhase → Bool
  | .waitFinish => false
  | .allDone => false
  | _ => true

/-- R15: the intake in flight is asked to end after its step; without one the controller goes on with the abandonment. -/
def State.haltController (s : State) (writesStatus : Bool) : State :=
  let s1 := s.setController { s.controller with statusTodo := s.controller.statusTodo.take 1 }
  match s.controller.intake with
  | none => s1.haltAdvance writesStatus programs
  | some i =>
    if i.phase.waitsForAccess then
      (s1.setController { s1.controller with intake := some { i with halted := true } }).setHalt (.waitIntake writesStatus)
    else (s1.setController { s1.controller with intake := none }).haltAdvance writesStatus programs

/-- R15, R6: HALT writes the status parts of a device that has a program table to write them to: from a run, or in a state
reached after the first allocation since the last reset (log 14). -/
def State.haltWritesStatus (s : State) : Bool :=
  s.control.device = .running || s.control.device = .draining || s.controller.statusSeen

/-- R177: HALT in STARTING, RUNNING, DRAINING or TESTING: every block ends its work. -/
def State.haltDevice (s : State) : State :=
  let s1 := (s.dropAccesses Agent.endsAtHalt).setControl
    { s.control with
      device := .halting, inFlight := some .halt, ignored := false, start := none, filterLoad := none, regionReload := none
      probe := none, notice := false, drainEnding := false, endedTest := none }
  let s2 := s1.setTimer { s1.timer with running := false }
  let s3 := s2.setAllocator s2.allocator.halted
  let s4 := s3.haltRecoder.haltSide.stopLine
  let s5 := s4.interruptTest
  (s5.setReporter s5.reporter.halted).haltController s.haltWritesStatus

/-- HALT (R172, R177), which is taken whenever it is written: also where it completes with WRONG_STATE (log 42). -/
def execHalt (s : State) : Host.Outcome State Fault Refusal :=
  match s.control.device with
  | .halting => .next s.notIgnored
  | .idle =>
    if s.control.inFlight.isSome then .next (s.haltCommand.notIgnored.complete (some .halt) .ok)
    else .next (s.haltQueues.notIgnored.complete (some .halt) .wrongState)
  | _ => .next s.haltDevice

/-- R177: the halt condition. -/
def State.haltReached (s : State) : Bool :=
  s.control.device = .halting && s.controller.halt = some .done && s.reporter.faultQueue.isEmpty
    && s.reporter.work.isNone && s.store.test.isNone

/-- R177: IDLE, and the one completion. -/
def State.haltFinish (s : State) : State :=
  let s1 := s.setController { s.controller with halt := none }
  let s2 := s1.setControl { s1.control with device := .idle, endedTest := none }
  match s.control.endedTest with
  | some r => s2.complete (some .testPages) r
  | none => s2.complete (some .halt) .ok

/-- HALT_COMPLETE (R177). Before the halt condition is met it does not complete (log 3). -/
def execHaltComplete (s : State) : Host.Outcome State Fault Refusal :=
  if s.haltReached then .next s.haltFinish else .next s

end Sys2Proof.Machine
end

