-- ==== Sys2Proof/Machine/Access.lean ====
section
/-! DEFINITION. How issued accesses end (R161), and to which block's work their end goes. -/

namespace Sys2Proof.Machine

/-- The access in flight with a tag. -/
def Link.find (l : Link) (tag : Nat) : Option Access := l.accesses.find? fun a => a.tag == tag

/-- The access with a tag leaves those in flight. -/
def State.removeAccess (s : State) (tag : Nat) : State :=
  s.setLink { s.link with accesses := s.link.accesses.filter fun a => a.tag != tag }

/-- The end of an access goes to the work that made it. -/
def State.deliver (s : State) (agent : Agent) (r : Reply) : State :=
  match agent with
  | .start => s.startReply r
  | .filterLoad => s.filterReply r
  | .regionReload => s.reloadReply r
  | .probe => s.probeReply r
  | .pageTest => s.testReply r
  | .intake => s.intakeReply r
  | .halt => s.haltReply r
  | .status => s.statusReply r
  | .finish p => s.finishReply p r
  | .engine e => s.engineReply e r
  | .side => s.sideReply r
  | .report => s.reportReply r
  | .faultRecord => s.faultReply r

/-- R161: the access with a tag ends; a tag that no access in flight has belongs to an access that has ended, and is
discarded (log 2). -/
def State.endAccess (s : State) (tag : Nat) (reply : Access → Reply) : State :=
  match s.link.find tag with
  | none => s
  | some a => (s.removeAccess tag).deliver a.agent (reply a)

/-- ACCESS_COMPLETION (R161): the access succeeds; a read delivers exactly its length (log 1). -/
def execAccessCompletion (tag : Nat) (data : List Byte) (s : State) : Host.Outcome State Fault Refusal :=
  .next (s.endAccess tag fun a =>
    match a.kind with
    | .read => .done (exactly a.length data)
    | .write => .done [])

/-- BUS_ERROR (R161): the access ends with BUS. -/
def execBusError (tag : Nat) (s : State) : Host.Outcome State Fault Refusal :=
  .next (s.endAccess tag fun a => .failed a.busFailure)

/-- COMPLETION_TIMEOUT (R161): the access ends with BUS. -/
def execCompletionTimeout (tag : Nat) (s : State) : Host.Outcome State Fault Refusal :=
  .next (s.endAccess tag fun a => .failed a.busFailure)

end Sys2Proof.Machine
end

