-- ==== Sys2Proof/Machine/Registers.lean ====
section
/-! DEFINITION. The meanings of the register accesses that are no CONTROL and no key window write (R101, R182, R183, R185). -/

namespace Sys2Proof.Machine

/-- KEY_CHECK (R101): the read returns the check holding and starts a capture if none is in flight. -/
def execKeyCheck (s : State) : Host.Outcome State Fault Refusal :=
  let s1 := s.setControl { s.control with readData := holdingWord s.keys.holding }
  .next (s1.setKeys s1.keys.startCapture)

/-- EVENTS (R182, R183): each flag written with 1 is cleared and the line follows. -/
def execEvents (value : Word) (s : State) : Host.Outcome State Fault Refusal :=
  .next (s.setControl (s.control.drive (s.control.events &&& ~~~(value.extractLsb' 0 8)) s.control.enable))

/-- EVENT_ENABLE (R182, R183): the enables are written and the line follows. -/
def execEventEnable (value : Word) (s : State) : Host.Outcome State Fault Refusal :=
  .next (s.setControl (s.control.drive s.control.events (value.extractLsb' 0 8)))

/-- R185: the DIRECTORY with one of its words written. -/
def writeDirectory (directory : Long) (high : Bool) (value : Word) : Long :=
  if high then value ++ directory.extractLsb' 0 32 else directory.extractLsb' 32 32 ++ value

/-- REGISTER_WRITE (R185, R100): DIRECTORY stores its word; STATUS and KEY_CHECK ignore the write. -/
def execRegisterWrite (register : PlainRegister) (value : Word) (s : State) : Host.Outcome State Fault Refusal :=
  match register with
  | .status => .next s
  | .directoryLow => .next (s.setControl { s.control with directory := writeDirectory s.control.directory false value })
  | .directoryHigh => .next (s.setControl { s.control with directory := writeDirectory s.control.directory true value })
  | .keyCheck => .next s

end Sys2Proof.Machine
end

