-- ==== Sys2Proof/Machine/Resets.lean ====
section
/-! DEFINITION. The three resets (R179, and each block's own rule for them). -/

namespace Sys2Proof.Machine

/-- R15, R31: the contexts of reset; the contents of the window slots are not cleared. -/
def Controller.afterReset (c : Controller) : Controller :=
  { Controller.reset with
    programs := PerProgram.tabulate fun p =>
      { ProgramCtx.reset with window := { Window.reset with slots := (c.programs.look p).window.slots } } }

/-- The values that every kind of reset gives, with a control unit and a store of the kind's own. The queue of waiting
commands and the model's counters are no state of the device. -/
def State.afterReset (s : State) (control : Control) (store : Store) : State :=
  { State.reset with
    pending := s.pending
    freeCount := s.freeCount
    control := control
    link := { Link.reset with nextTag := s.link.nextTag }
    controller := s.controller.afterReset
    store := store }

/-- POWER_ON_RESET (R179, R128): every block at its power-on values, no event. -/
def execPowerOnReset (s : State) : Host.Outcome State Fault Refusal :=
  .next (s.afterReset Control.reset Store.reset)

/-- BUS_FUNCTION_RESET (R179, R128): the same values. -/
def execBusFunctionReset (s : State) : Host.Outcome State Fault Refusal :=
  .next (s.afterReset Control.reset Store.reset)

/-- R129: the retired set after a RESET: with the marked pages of the sending list, and with the page under test if it came
from the set. -/
def State.retiredAfterReset (s : State) : List Nat :=
  let marked := s.line.sendingPages.filter s.store.marks.contains
  let tested :=
    match s.store.test.map PageTest.phase with
    | some (.pages page .retired) => [page]
    | _ => []
  (marked ++ tested).foldl (fun r p => insertPage p r) s.store.retired

/-- R179: the control unit after a RESET, before its event. -/
def Control.afterReset (c : Control) : Control :=
  { Control.reset with directory := c.directory, last := some .reset, result := .ok }

/-- RESET (R179): every block is reset, DIRECTORY and the retired set are kept, and COMMAND_DONE is set. -/
def execReset (s : State) : Host.Outcome State Fault Refusal :=
  .next ((s.afterReset s.control.afterReset (s.store.rebuilt s.retiredAfterReset)).raise .commandDone)

end Sys2Proof.Machine
end

