-- ==== Sys2Proof/Machine/Dispatch.lean ====
section
/-! DEFINITION. One arm for each command. -/

namespace Sys2Proof.Machine

/-- The effect of a command on everything but the queue. -/
def exec (i : Instr) (s : State) : Host.Outcome State Fault Refusal :=
  match i with
  | .start => Sys2Proof.Machine.execStart s
  | .startComplete => Sys2Proof.Machine.execStartComplete s
  | .stop => Sys2Proof.Machine.execStop s
  | .halt => Sys2Proof.Machine.execHalt s
  | .haltComplete => Sys2Proof.Machine.execHaltComplete s
  | .loadFilters => Sys2Proof.Machine.execLoadFilters s
  | .loadEnd => Sys2Proof.Machine.execLoadEnd s
  | .reloadRegions => Sys2Proof.Machine.execReloadRegions s
  | .reloadEnd => Sys2Proof.Machine.execReloadEnd s
  | .testPages first count => Sys2Proof.Machine.execTestPages first count s
  | .pageTested event => Sys2Proof.Machine.execPageTested event s
  | .testEnd => Sys2Proof.Machine.execTestEnd s
  | .probe => Sys2Proof.Machine.execProbe s
  | .probeEnd => Sys2Proof.Machine.execProbeEnd s
  | .reset => Sys2Proof.Machine.execReset s
  | .badCommand code => Sys2Proof.Machine.execBadCommand code s
  | .powerOnReset => Sys2Proof.Machine.execPowerOnReset s
  | .busFunctionReset => Sys2Proof.Machine.execBusFunctionReset s
  | .keySelectNone program parity => Sys2Proof.Machine.execKeySelectNone program parity s
  | .load program parity => Sys2Proof.Machine.execLoad program parity s
  | .erase program parity => Sys2Proof.Machine.execErase program parity s
  | .badOperation program parity code => Sys2Proof.Machine.execBadOperation program parity code s
  | .keyData half => Sys2Proof.Machine.execKeyData half s
  | .installEnd => Sys2Proof.Machine.execInstallEnd s
  | .keyCheck => Sys2Proof.Machine.execKeyCheck s
  | .captureEnd => Sys2Proof.Machine.execCaptureEnd s
  | .events value => Sys2Proof.Machine.execEvents value s
  | .eventEnable value => Sys2Proof.Machine.execEventEnable value s
  | .registerWrite register value => Sys2Proof.Machine.execRegisterWrite register value s
  | .boundary event => Sys2Proof.Machine.execBoundary event s
  | .intakeComplete => Sys2Proof.Machine.execIntakeComplete s
  | .allocationComplete => Sys2Proof.Machine.execAllocationComplete s
  | .passEnd engine => Sys2Proof.Machine.execPassEnd engine s
  | .floorPassEnd engine => Sys2Proof.Machine.execFloorPassEnd engine s
  | .jobCompletion engine => Sys2Proof.Machine.execJobCompletion engine s
  | .finishReport program => Sys2Proof.Machine.execFinishReport program s
  | .faultReport program => Sys2Proof.Machine.execFaultReport program s
  | .completionReport program => Sys2Proof.Machine.execCompletionReport program s
  | .sideLink => Sys2Proof.Machine.execSideLink s
  | .cellRequest check => Sys2Proof.Machine.execCellRequest check s
  | .faultRecordWriteEnd => Sys2Proof.Machine.execFaultRecordWriteEnd s
  | .accessCompletion tag data => Sys2Proof.Machine.execAccessCompletion tag data s
  | .busError tag => Sys2Proof.Machine.execBusError tag s
  | .completionTimeout tag => Sys2Proof.Machine.execCompletionTimeout tag s

end Sys2Proof.Machine
end

