-- ==== Sys2Proof/Safety.lean ====
section
/-! DEFINITION. What a sound state is: the invariants the manual's prose gives, in the words the statements use. -/

namespace Sys2Proof.Machine

/-- R183: the interrupt line is asserted exactly when some event flag and its enable bit are both set. -/
def State.LineDriven (s : State) : Prop := s.control.line = ((s.control.events &&& s.control.enable) != 0)

/-- The written places of the cell store, and the contents it keeps of the others, are in canonical form: strictly rising, each
with the 200 bytes of a cell. -/
def State.StoreSound (s : State) : Prop := s.store.cells.wf = true ∧ s.store.residue.wf = true

/-- R95, R99: KEY_BUSY is 1 exactly while an install is in flight; a slot is INSTALLING exactly when the install in flight
writes it; and a slot that its program's parity record in force names as active is not INSTALLING. -/
structure Keys.Sound (k : Keys) : Prop where
  busy : k.busy = k.install.isSome
  installing : ∀ p q, k.slot p q = .installing ↔ ∃ i, k.install = some i ∧ i.program = p ∧ i.parity = q
  active : ∀ p q, k.isProtected p q = true → k.slot p q ≠ .installing

/-- R94: the record of a CLEAR program is not in force and its active parity is CLEAR. -/
def Keys.ClearIsClear (k : Keys) : Prop :=
  ∀ p, (k.records.look p).scrambled = false → (k.records.look p).inForce = false ∧ (k.records.look p).active = none

/-- The key unit is sound. -/
def State.KeysSound (s : State) : Prop := s.keys.Sound ∧ s.keys.ClearIsClear

/-- R63: every debt that a program owes, that a report on its way names, or that a job carries is at most 8 cells. -/
structure State.DebtsBounded (s : State) : Prop where
  owed : ∀ p, s.allocator.debt.look p ≤ Config.debtLimit
  reported : ∀ r ∈ s.allocator.reports, r.debt ≤ Config.debtLimit
  carried : ∀ j ∈ s.recoder.jobs, j.debt ≤ Config.debtLimit

/-- The phases of a take between its check of the window count and the write of the slot (R18, R19). -/
def IntakePhase.isTaking : IntakePhase → Bool
  | .stateRead => true
  | .recordRead => true
  | .sliceTable _ => true
  | .sideTable _ _ => true
  | .headRead _ _ _ _ _ => true
  | .taken _ _ => true
  | _ => false

/-- R32: a window's count stays within 0..4, and a take in progress has found it below 4. -/
structure State.WindowsBounded (s : State) : Prop where
  bounded : ∀ p, (s.ctx p).window.count ≤ 4
  roomToTake : ∀ i, s.controller.intake = some i → i.phase.isTaking = true → (s.ctx i.program).window.count < 4

/-- R139, R144: the side queue and the reserved messages that may return to it fit its 32 places. -/
def State.SideBounded (s : State) : Prop := s.side.queue.length + s.side.reserved.length ≤ Config.sideQueueLimit

/-- R166: one fault record write at most is in flight, and it is that of the head of the queue; behind it each program has at
most one request waiting. -/
structure State.FaultQueueSound (s : State) : Prop where
  head : s.reporter.faultQueue = [] ↔ s.reporter.faultWrite = none
  waiting : (s.reporter.faultQueue.tail.map FaultRequest.program).Nodup

/-- No page is out of the free list and the retired set but the page under test. -/
structure State.StoreQuiet (s : State) : Prop where
  engine0 : s.recoder.re0.phase = .idle
  engine1 : s.recoder.re1.phase = .idle
  side : s.side.build = none
  line : s.line.buildingPages = [] ∧ s.line.sendingPages = [] ∧ s.line.holdingPages = []

/-- R116: every page is at every moment in exactly one place. The rest says what keeps it so: the retired set is in ascending
order, only a build holds pages, the page under test is within its range, and the work that moves pages goes on in the
device states it belongs to alone (R171). -/
structure State.PagesSound (s : State) : Prop where
  onePlace : s.pageHolders.flatten.Perm (List.range Config.pageCount)
  rising : s.store.retired.Pairwise (· < ·)
  queued : ∀ j ∈ s.recoder.queue, j.pages = []
  engines : ∀ e j w, (s.recoder.engine e).phase = .coding j w ∨ (s.recoder.engine e).phase = .passEnded j w → j.pages = []
  test : ∀ t, s.store.test = some t →
    t.last < Config.pageCount ∧ (∀ p ∈ t.page, p ≤ t.last) ∧ (t.phase = .between → t.next ≤ t.last)
  quiet : s.control.device ≠ .running → s.control.device ≠ .draining → s.StoreQuiet
  testing : s.store.test.isSome = true → s.control.device = .testing ∨ s.control.device = .halting
  starting : s.control.start.isSome = true → s.control.device = .starting
  timed : s.timer.running = true → s.control.device = .running ∨ s.control.device = .draining
  allocating : s.allocator.inFlight.isSome = true → s.timer.running = true

/-! ### What the ends of some work leave -/

/-- R126: from s to t the result record of a test is being written at the directory address DIRECTORY holds, or, where it holds
0 or no multiple of 8, the test has ended without a write. -/
def State.RecordsTest (s : State) (x : PageTest) (t : State) : Prop :=
  (s.control.directory ≠ 0 ∧ s.control.directory.toNat % 8 = 0 →
    t = { s with
      store := { s.store with test := some { x with phase := .writing } }
      link := { s.link with
        accesses := s.link.accesses ++
          [{ tag := s.link.nextTag, agent := .pageTest, kind := .write, addr := s.control.directory + 0x54, length := 8
             key := none, region := 0xFF, data := testBytes x.tested x.usable x.retired x.next }]
        nextTag := s.link.nextTag + 1 } }) ∧
  (s.control.directory = 0 ∨ s.control.directory.toNat % 8 ≠ 0 →
    t = { s with store := { s.store with test := some { x with phase := .ended .directoryAccess } } })

/-- R86, R71: from s to t the job of an engine ends in a hold ending: the placeholder and the continuity count stay, the job's pages
return, the spare pool takes budget − 1 and the draw, and both reports carry the outcome, the pass, size 8, one cell, mean q_out 0
and debt 0. The engine, idle then, takes the job at the head of the queue. -/
def State.EndsHeld (s : State) (e : Engine) (j : Job) (o : Outcome) (t : State) : Prop :=
  t = ({ s with
    store := s.store.giveBack j.pages
    recoder := { s.recoder.setEngine e { s.recoder.engine e with phase := .idle } with
      spare := s.recoder.spare + (j.budget - 1 + j.draw)
      figures := s.recoder.figures.put j.program (some { outcome := some o, pass := j.pass, cells := 1, meanQ := 0 }) }
    controller := { s.controller with
      reports := s.controller.reports ++
        [{ program := j.program, slot := j.slot, takeNumber := j.takeNumber, interval := j.interval
           body := .finish o j.pass 8 1 0 0 }] }
    allocator := { s.allocator with
      reports := s.allocator.reports ++
        [{ program := j.program, interval := j.interval, outcome := o, pass := j.pass, size := 8, cells := 1, meanQ := 0
           debt := 0 }] } } : State).engineTakes e

/-- R88, R71: from s to t the job of an engine ends by a content fault. A TOLERANT program's job ends in a hold ending. A STRICT
program's ends in a fault ending: its pages return, the spare pool takes budget − 1, the program controller gets the fault report,
and the allocator gets no completion. The engine, idle then, takes the job at the head of the queue. -/
def State.EndsFaulted (s : State) (e : Engine) (j : Job) (f : Failure) (t : State) : Prop :=
  ((s.ctx j.program).fixed.tolerant = true → s.EndsHeld e j .faultTolerated t) ∧
  ((s.ctx j.program).fixed.tolerant = false →
    t = ({ s with
      store := s.store.giveBack j.pages
      recoder := { s.recoder.setEngine e { s.recoder.engine e with phase := .idle } with
        spare := s.recoder.spare + (j.budget - 1)
        figures := s.recoder.figures.put j.program (some { outcome := none, pass := j.pass, cells := 1, meanQ := 0 }) }
      controller := { s.controller with
        reports := s.controller.reports ++
          [{ program := j.program, slot := j.slot, takeNumber := j.takeNumber, interval := j.interval
             body := .fault f j.pass }] } } : State).engineTakes e)

/-- R72, R28: from s to t an engine goes on with its job at the slice that its work names next: its read is in flight, or, refused, a
content fault ends the job. Behind the last slice the pass has ended. -/
def State.ReadsSlice (s : State) (e : Engine) (j : Job) (w : PassWork) (t : State) : Prop :=
  let at' := fun (phase : EnginePhase) =>
    ({ s with recoder := s.recoder.setEngine e { s.recoder.engine e with phase := phase } } : State)
  (w.source.slices.length ≤ w.next → t = at' (.passEnded j w)) ∧
  ∀ d, w.source.slices[w.next]? = some d →
    let request := readRequest (.engine e) (some (s.ctx j.program).fixed.accessKey)
      (w.source.sliceBase + BitVec.ofNat 64 d.offset) d.length
    (∀ region, checkAccess s.link.regions request = .ok region →
      t = { at' (.coding j w) with
        link := { s.link with
          accesses := s.link.accesses ++
            [{ tag := s.link.nextTag, agent := .engine e, kind := .read
               addr := w.source.sliceBase + BitVec.ofNat 64 d.offset, length := d.length
               key := some (s.ctx j.program).fixed.accessKey, region := region, data := [] }]
          nextTag := s.link.nextTag + 1 } }) ∧
    ∀ result region, checkAccess s.link.regions request = .error (result, region) →
      (at' (.coding j w)).EndsFaulted e j
        { result := result, region := region, kind := .read
          addr := w.source.sliceBase + BitVec.ofNat 64 d.offset, length := d.length } t

/-- R72, R74: from s to t a pass of a job begins: its picture header, with a mean q_out of 0 until the pass has ended, is in the
scratch buffer, 8 bytes are counted, and the first slice is read. -/
def State.BeginsPass (s : State) (e : Engine) (j : Job) (source : Source) (quants : List Nat) (cutoff : Nat)
    (limits : List (Nat × StopReason)) (t : State) : Prop :=
  let header : List Byte :=
    [0x5A, 0x17, source.sequence.extractLsb' 8 8, source.sequence.extractLsb' 0 8, BitVec.ofNat 8 (kindCode source.kind)
     , BitVec.ofNat 8 source.slices.length, 0, BitVec.ofNat 8 j.pass]
  ({ s with recoder := s.recoder.setEngine e { s.recoder.engine e with scratch := header } } : State).ReadsSlice e j
    { source := source, quants := quants, cutoff := cutoff, limits := limits, next := 0, size := 8, stopped := none } t

/-- R74, R84: the state with the mean q_out of a result written into the header of its picture, in an engine's scratch buffer. -/
def State.withMeanQ (s : State) (e : Engine) (meanQ : Nat) : State :=
  { s with
    recoder := s.recoder.setEngine e
      { s.recoder.engine e with
        scratch := ((s.recoder.engine e).scratch.set 6 (BitVec.ofNat 8 meanQ)).take Config.scratchBytes } }

/-- R84, R107: from s to t an accepted result of an engine is built, or ends held. A SCRAMBLED program
whose record is not in force, or whose active slot is not LOADED, ends with KEY_MISSING; a request for more pages than are free
takes none and ends with STORE_FULL; otherwise the job holds the pages from the head of the free list, and for a SCRAMBLED
program the build keeps the active parity and its word. -/
def State.BuildsResult (s : State) (e : Engine) (j : Job) (w : PassWork) (t : State) : Prop :=
  let meanQ := weightedMean w.source.slices w.quants
  let scrambled := (s.ctx j.program).fixed.scrambled
  let record := s.keys.records.look j.program
  let pages := (j.budget + j.draw + 19) / 20 + (j.debt + 19) / 20
  let built := fun (key : Option (Parity × Long)) =>
    t = { s.withMeanQ e meanQ with
      store := { s.store with free := s.store.free.drop pages }
      recoder := (s.withMeanQ e meanQ).recoder.setEngine e
        { (s.withMeanQ e meanQ).recoder.engine e with
          phase := .building { j with pages := s.store.free.take pages }
            { sequence := w.source.sequence, size := w.size, meanQ := meanQ, key := key } } }
  (scrambled = true →
    record.inForce = false ∨ (∀ q word, record.active = some q → (s.keys.slots.look j.program).slot q ≠ .loaded word) →
    (s.withMeanQ e meanQ).EndsHeld e j .keyMissing t) ∧
  (∀ q word, scrambled = true → record.inForce = true → record.active = some q →
    (s.keys.slots.look j.program).slot q = .loaded word →
    (pages ≤ s.store.free.length → built (some (q, word))) ∧
    (s.store.free.length < pages → (s.withMeanQ e meanQ).EndsHeld e j .storeFull t)) ∧
  (scrambled = false →
    (pages ≤ s.store.free.length → built none) ∧
    (s.store.free.length < pages → (s.withMeanQ e meanQ).EndsHeld e j .storeFull t))

/-- R141, R143: from s to t the side path goes on with its next waiting message: it holds the page at the head of the free list and
its read is in flight. A refused read returns the page, drops the message and sets the side fault note, and the next one follows; with
no free page the builds of the interval stop. -/
def State.BuildsSide (s t : State) : Prop :=
  (s.side.stopped = true ∨ s.side.build ≠ none ∨ (∀ r ∈ s.side.reserved, r.state ≠ .waiting) → t = s) ∧
  (s.side.stopped = false → s.side.build = none → ∀ before r after, s.side.reserved = before ++ r :: after →
    (∀ x ∈ before, x.state ≠ .waiting) → r.state = .waiting →
    (s.store.free = [] → t = { s with side := { s.side with stopped := true } }) ∧
    ∀ page free, s.store.free = page :: free →
      (∀ region, checkAccess s.link.regions (readRequest .side (some r.message.key) r.message.address r.message.length) =
          .ok region →
        t = { s with
          store := { s.store with free := free }
          side := { s.side with
            reserved := before ++ { r with state := .building } :: after
            build := some { message := r.message, page := page, data := none } }
          link := { s.link with
            accesses := s.link.accesses ++
              [{ tag := s.link.nextTag, agent := .side, kind := .read, addr := r.message.address, length := r.message.length
                 key := some r.message.key, region := region, data := [] }]
            nextTag := s.link.nextTag + 1 } }) ∧
      ∀ e, checkAccess s.link.regions (readRequest .side (some r.message.key) r.message.address r.message.length) = .error e →
        t = ({ s with
          store := ({ s.store with free := free } : Store).giveBack [page]
          side := { s.side with
            reserved := (before ++ after).filter fun x => x.state ≠ .building
            faultNote := s.side.faultNote.put r.message.program true } } : State).nextSideBuild)

/-! ### HALT's abandonment and the status parts -/

/-- R13, R22: the write of ABANDONED to the outcome fields of the picture at a window name of a program, under HALT. -/
def State.abandonRequest (s : State) (p : Program) (k : Nat) : Request :=
  { agent := .halt, kind := .write, addr := ((s.ctx p).window.named k).record + 0x30, length := 24
    key := some (s.ctx p).fixed.accessKey
    data := outcomeBytes .abandoned 0 0 0 0 s.timer.number ((s.ctx p).window.named k).sides }

/-- R13: the state with a record write of an abandonment noted as failed. -/
def State.abandonNoted (s : State) (p : Program) : State :=
  { s with controller := { s.controller with
    notes := s.controller.notes.modify p fun n => { n with abandonWriteFault := true } } }

/-- R13: a name is left behind without a write in flight: its record is FAULTED, or the memory link refuses the write. -/
def State.PassedOver (s : State) (p : Program) (n : Nat) : Prop :=
  ((s.ctx p).window.named n).faulted = true ∨ ∃ e, checkAccess s.link.regions (s.abandonRequest p n) = .error e

/-- R13, R15: from s to t HALT visits the window of p from the name at offset i on, with the programs of `rest` to follow. The first
name that is not left behind gets its outcome write. Behind the last one the window is empty, the program is OFF and its parity record
not in force, and the next program follows. Each refused write is noted. -/
def State.HaltVisits (s : State) (writesStatus : Bool) (p : Program) (rest : List Program) (i : Nat) (t : State) : Prop :=
  let noted := fun (k : Nat) (u : State) =>
    ((∃ n, i ≤ n ∧ n < k ∧ ((s.ctx p).window.named n).faulted = false) → u = s.abandonNoted p) ∧
      ((∀ n, i ≤ n → n < k → ((s.ctx p).window.named n).faulted = true) → u = s)
  (∀ k region, i ≤ k → k < (s.ctx p).window.count → (∀ n, i ≤ n → n < k → s.PassedOver p n) →
    ((s.ctx p).window.named k).faulted = false → checkAccess s.link.regions (s.abandonRequest p k) = .ok region →
    ∃ u, noted k u ∧ t = { u with
      controller := { u.controller with halt := some (.outcome (p :: rest) k writesStatus) }
      link := { s.link with
        accesses := s.link.accesses ++
          [{ tag := s.link.nextTag, agent := .halt, kind := .write, addr := (s.abandonRequest p k).addr, length := 24
             key := (s.abandonRequest p k).key, region := region, data := (s.abandonRequest p k).data }]
        nextTag := s.link.nextTag + 1 } }) ∧
  ((∀ n, i ≤ n → n < (s.ctx p).window.count → s.PassedOver p n) →
    ∃ u, noted (s.ctx p).window.count u ∧
      t = State.haltAdvance writesStatus rest { u with
        controller := { u.controller with
          programs := s.controller.programs.modify p fun c => { c with state := .off, window := { c.window with count := 0 } } }
        keys := { s.keys with
          records := s.keys.records.modify p fun r => { r with inForce := false, pending := none, switchHeld := false } } })

/-- R6: the write of the status part of one program, with the values of this moment. -/
def State.statusRequest (s : State) (p : Program) : Request :=
  { agent := .status, kind := .write, addr := s.settingsD.programTable + BitVec.ofNat 64 (128 * p.val + 0x40), length := 64
    key := some 0
    data := statusBytes (s.ctx p) (s.allocator.debt.look p) (s.allocator.delivered.look p).sum (s.keys.records.look p)
      (s.side.latch.look p) }

/-- R6: the state with the status part of a program noted as not written. -/
def State.statusNoted (s : State) (p : Program) : State :=
  { s with controller := { s.controller with
    notes := s.controller.notes.modify p fun n => { n with statusUnwritten := true } } }

/-! ### The reports of the engines -/

/-- R11, R166, R167, R40: from s to t a program takes a holding fault that a report brings. A program already HELD gets the flag
alone, an OFF program nothing. Otherwise it becomes HELD, and its fault record request, with the interval the timer shows, the window
count and the sequences of the valid places in logical order, joins the queue: its write begins where the queue is empty, and where a
request of the program waits it takes that one's place, whose record is lost. -/
def State.HeldBy (s : State) (p : Program) (info : FaultInfo) (t : State) : Prop :=
  let c := s.ctx p
  let request : FaultRequest :=
    { program := p, area := c.fixed.faultArea, key := c.fixed.accessKey, interval := s.timer.number, info := info
      count := c.window.count, sequences := (List.range c.window.count).map fun i => (c.window.named i).sequence }
  let write : Request :=
    { agent := .faultRecord, kind := .write, addr := request.area, length := 64, key := some request.key
      data := faultRecordBytes request }
  let held : Controller :=
    { s.controller with
      notes := s.controller.notes.modify p fun n => { n with heldFault := true }
      programs := s.controller.programs.modify p fun c => { c with state := .held } }
  (c.state = .off → t = s) ∧
  (c.state = .held →
    t = { s with controller := { s.controller with
      notes := s.controller.notes.modify p fun n => { n with heldFault := true } } }) ∧
  (c.state ≠ .off → c.state ≠ .held →
    (s.reporter.faultQueue = [] →
      (∀ region, checkAccess s.link.regions write = .ok region →
        t = { s with
          controller := held
          reporter := { s.reporter with faultQueue := [request], faultWrite := some .waiting }
          link := { s.link with
            accesses := s.link.accesses ++
              [{ tag := s.link.nextTag, agent := .faultRecord, kind := .write, addr := request.area, length := 64
                 key := some request.key, region := region, data := faultRecordBytes request }]
            nextTag := s.link.nextTag + 1 } }) ∧
      ∀ e, checkAccess s.link.regions write = .error e →
        t = { s with
          controller := held, reporter := { s.reporter with faultQueue := [request], faultWrite := some (.ended false) } }) ∧
    ∀ head waiting, s.reporter.faultQueue = head :: waiting →
      ((∀ x ∈ waiting, x.program ≠ p) →
        t = { s with controller := held, reporter := { s.reporter with faultQueue := head :: waiting ++ [request] } }) ∧
      ((∃ x ∈ waiting, x.program = p) →
        t = { s with
          controller := { held with
            notes := s.controller.notes.modify p fun n => { n with heldFault := true, faultRecordLost := true } }
          reporter := { s.reporter with
            faultQueue := head :: waiting.map fun x => if x.program = p then request else x } }))

/-- R23, R15, R8: from s to t the handling of a program's report is over. A HALT that waited for it goes on with its programs (log 16),
an intake that waited for it with the program's transition. -/
def State.FinishOver (s : State) (p : Program) (t : State) : Prop :=
  let ended : State := { s with controller := { s.controller with
    programs := s.controller.programs.modify p fun c => { c with finish := none } } }
  (∀ todo x, s.controller.halt = some (.waitFinish todo x) → t = State.haltAdvance x todo ended) ∧
  ((∀ todo x, s.controller.halt ≠ some (.waitFinish todo x)) →
    (∀ i, s.controller.intake = some i → i.phase = .waitFinish → i.program = p →
      t = State.intakeRun intakeFuel (ended.transition p) ∧
        ((ended.transition p).2 = none → t = (ended.transition p).1)) ∧
    ((∀ i, s.controller.intake = some i → i.phase ≠ .waitFinish ∨ i.program ≠ p) → t = ended))

/-- R35, R22: the state with window picture A of a report's program finished: the window advanced, the last outcome and the last
interval coded set. -/
def State.aFinished (s : State) (r : Report) : State :=
  { s with controller := { s.controller with
    programs := s.controller.programs.modify r.program fun c =>
      { c with
        window := { c.window with head := c.window.head + 1, count := c.window.count - 1 }
        lastOutcome := some r.body.outcome, lastInterval := r.interval } } }

/-- R10, R22, R35: from s to t both writes of a finish have succeeded: A is finished, and a DRAINING program whose window that empties
is OFF, with the notice of R176 where it was the last one. -/
def State.Finishes (s : State) (r : Report) (t : State) : Prop :=
  let p := r.program
  let off : State := { s.aFinished r with
    controller := { s.controller with
      programs := (s.aFinished r).controller.programs.modify p fun c => { c with state := .off } }
    keys := { s.keys with
      records := s.keys.records.modify p fun x => { x with inForce := false, pending := none, switchHeld := false } } }
  ((s.ctx p).state ≠ .draining ∨ 2 ≤ (s.ctx p).window.count → (s.aFinished r).FinishOver p t) ∧
  ((s.ctx p).state = .draining → (s.ctx p).window.count ≤ 1 →
    (s.control.device = .draining → (∀ q, q ≠ p → (s.ctx q).state = .off) →
      ({ off with control := { s.control with notice := true } } : State).FinishOver p t) ∧
    (s.control.device ≠ .draining ∨ (∃ q, q ≠ p ∧ (s.ctx q).state ≠ .off) → off.FinishOver p t))

/-- R22, R11: from s to t the one attempt to write FAULTED has ended, well or not: the finish stands, and the program is held with fault
cause RECORD_WRITE, the record and sequence of A and the access that failed. -/
def State.FinishesHeld (s : State) (r : Report) (f : Failure) (t : State) : Prop :=
  let slot := (s.ctx r.program).window.named 0
  ∃ u, (s.aFinished r).HeldBy r.program
      { cause := .recordWrite, result := some f.result, record := slot.record, sequence := slot.sequence, addr := f.addr
        length := f.length, kind := f.kind, region := f.region, pass := 0 } u ∧
    u.FinishOver r.program t

/-- The state with the handling of a report at a phase. -/
def State.finishAt (s : State) (r : Report) (phase : FinishPhase) : State :=
  { s with controller := { s.controller with
    programs := s.controller.programs.modify r.program fun c => { c with finish := some { report := r, phase := phase } } } }

/-- R22: the write of a state byte to the record of a report's picture A. -/
def State.stateRequest (s : State) (r : Report) (value : Byte) : Request :=
  { agent := .finish r.program, kind := .write, addr := ((s.ctx r.program).window.named 0).record, length := 1
    key := some (s.ctx r.program).fixed.accessKey, data := [value] }

/-- The state with that write in flight for a phase of the handling. -/
def State.writesState (s : State) (r : Report) (phase : FinishPhase) (value region : Byte) : State :=
  { s.finishAt r phase with
    link := { s.link with
      accesses := s.link.accesses ++
        [{ tag := s.link.nextTag, agent := .finish r.program, kind := .write
           addr := ((s.ctx r.program).window.named 0).record, length := 1, key := some (s.ctx r.program).fixed.accessKey
           region := region, data := [value] }]
      nextTag := s.link.nextTag + 1 } }

/-- R22: from s to t the outcome write or the state write of a finish has failed: one attempt to write FAULTED (4) begins, or, refused,
has ended. -/
def State.FinishFails (s : State) (r : Report) (f : Failure) (t : State) : Prop :=
  (∀ region, checkAccess s.link.regions (s.stateRequest r 4) = .ok region → t = s.writesState r (.afterFailure f) 4 region) ∧
  ∀ e, checkAccess s.link.regions (s.stateRequest r 4) = .error e → (s.finishAt r (.afterFailure f)).FinishesHeld r f t

/-- R22: from s to t the outcome fields are written and the write of DONE (3) begins, or, refused, fails. -/
def State.WritesDone (s : State) (r : Report) (t : State) : Prop :=
  (∀ region, checkAccess s.link.regions (s.stateRequest r 3) = .ok region → t = s.writesState r .state 3 region) ∧
  ∀ result region, checkAccess s.link.regions (s.stateRequest r 3) = .error (result, region) →
    (s.finishAt r .state).FinishFails r
      { result := result, region := region, kind := .write, addr := ((s.ctx r.program).window.named 0).record, length := 1 } t

/-- R23, R37, R88: from s to t the FAULTED write of a STRICT content fault has ended: the picture stays in A, its slot marked as FAULTED
where the write succeeded, and the program is held with fault cause SLICE_DATA, the access that failed and the pass. -/
def State.StrictHolds (s : State) (r : Report) (f : Failure) (pass : Nat) (written : Bool) (t : State) : Prop :=
  let w := (s.ctx r.program).window
  let slot := w.named 0
  let marked : State :=
    if written then
      { s with controller := { s.controller with
        programs := s.controller.programs.modify r.program fun c =>
          { c with window := { w with slots := w.slots.set w.head.val { slot with faulted := true } w.head.isLt } } } }
    else s
  ∃ u, marked.HeldBy r.program
      { cause := .sliceData, result := some f.result, record := slot.record, sequence := slot.sequence, addr := f.addr
        length := f.length, kind := f.kind, region := f.region, pass := pass } u ∧
    u.FinishOver r.program t

/-! ### Reports -/

/-- R180: from s to t the accesses of one report have ended and no drain ends with them: the report that waits next begins with
its read of the consumed index. -/
def State.ReportFollows (s t : State) : Prop :=
  (s.reporter.waiting = [] → t = { s with reporter := { s.reporter with work := none } }) ∧
  ∀ f rest, s.reporter.waiting = f :: rest →
    t = { s with
      reporter := { s.reporter with work := some { figures := f, phase := .consumed }, waiting := rest }
      link := { s.link with
        accesses := s.link.accesses ++
          [{ tag := s.link.nextTag, agent := .report, kind := .read, addr := s.settingsD.directory + 0x3C, length := 4
             key := none, region := 0xFF, data := [] }]
        nextTag := s.link.nextTag + 1 } }

/-- R181: one section of the report of the interval that a boundary closes at s. `debt` and `delivered` are the allocator's after
its boundary work. -/
structure State.Section (s : State) (debt delivered : Nat) (g : SectionFigures) : Prop where
  state : g.state = (s.ctx g.program).state
  noJob : (∀ j ∈ s.recoder.jobs, j.program ≠ g.program) → s.recoder.figures.look g.program = none →
    g.outcome = none ∧ g.pass = 0 ∧ g.cells = 0 ∧ g.meanQ = 0
  ended : ∀ x, (∀ j ∈ s.recoder.jobs, j.program ≠ g.program) → s.recoder.figures.look g.program = some x →
    g.outcome = x.outcome ∧ g.pass = x.pass ∧ g.cells = x.cells ∧ g.meanQ = x.meanQ
  late : ∀ j, (s.recoder.jobs.filter fun j => j.program = g.program).getLast? = some j →
    g.outcome = some .late ∧ g.pass = j.pass ∧ g.cells = 1 ∧ g.meanQ = 0
  grant : ∀ a x, s.allocator.current = some a → (a.grants.find? fun x => x.program = g.program) = some x →
    g.budget = x.budget ∧ g.flags.getLsbD 3 = x.tight ∧ g.flags.getLsbD 4 = x.pinned
  noGrant : (∀ a, s.allocator.current = some a → ∀ x ∈ a.grants, x.program ≠ g.program) →
    g.budget = 0 ∧ g.flags.getLsbD 3 = false ∧ g.flags.getLsbD 4 = false
  debt : g.debt = debt
  delivered : g.delivered = delivered
  configClamped : g.flags.getLsbD 0 = (s.controller.notes.look g.program).configClamped
  entryUnreadable : g.flags.getLsbD 1 = (s.controller.notes.look g.program).entryUnreadable
  statusUnwritten : g.flags.getLsbD 2 = (s.controller.notes.look g.program).statusUnwritten
  starved : g.flags.getLsbD 5 = true ↔
    ∃ a, s.allocator.current = some a ∧ ∃ h ∈ a.holds, h.program = g.program ∧ h.starved = true
  heldFault : g.flags.getLsbD 6 = (s.controller.notes.look g.program).heldFault
  faultRecordLost : g.flags.getLsbD 7 = (s.controller.notes.look g.program).faultRecordLost
  abandonWriteFault : g.flags.getLsbD 8 = (s.controller.notes.look g.program).abandonWriteFault
  sideFault : g.flags.getLsbD 9 = ((s.controller.notes.look g.program).sideFault || s.side.faultNote.look g.program)
  cueLatched : g.flags.getLsbD 10 = s.side.cueNote.look g.program
  switchHeld : g.flags.getLsbD 11 = (s.keys.records.look g.program).switchHeld
  lineShortfall : g.flags.getLsbD 12 =
    decide ((s.line.sending.look g.program).next < (s.line.sending.look g.program).entries.length)
  noOther : g.flags.toNat < 8192

/-- R181: the figures of the interval that a boundary closes at s, as the blocks hand them over. `debt` and `delivered` are the
allocator's after its boundary work, and `lineFirst` the order in which the store takes the returns of the line and of the LATE
jobs (R123). -/
structure State.Gathers (s : State) (lineFirst : Bool) (debt delivered : Program → Nat) (f : Figures) : Prop where
  interval : f.interval = s.timer.number
  pool : f.pool = s.allocator.current.elim 0 Allocation.pool
  reserve : f.reserve = s.allocator.current.elim 0 Allocation.reserve
  spare : f.spare = s.recoder.spare
  nulls : f.nulls = s.line.nulls
  shortfall : f.shortfall =
    (programs.map fun p => (s.line.sending.look p).entries.length - (s.line.sending.look p).next).sum
  correctable : f.correctable = s.store.correctable
  freePages :
    let returned := (s.side.build.map SideBuild.page).toList ++
      (if lineFirst then [] else s.recoder.jobs.flatMap Job.pages) ++ s.line.sendingPages
    returned.Nodup → f.freePages = s.store.free.length + (returned.filter fun p => p ∉ s.store.marks).length
  minimaScaled : f.flags.getLsbD 0 = s.allocator.current.any Allocation.scaled
  intervalMissed : f.flags.getLsbD 1 = s.allocator.current.isNone
  storeError : f.flags.getLsbD 2 = s.store.errorNote
  lineShortfall : f.flags.getLsbD 3 = decide (0 < f.shortfall)
  noOther : f.flags.toNat < 16
  count : f.sections.length = (s.settingsD.lastProgram - s.settingsD.firstProgram).val + 1
  sections : ∀ i g, f.sections[i]? = some g →
    g.program = s.settingsD.firstProgram + Fin.ofNat 16 i ∧ s.Section (debt g.program) (delivered g.program) g

end Sys2Proof.Machine
end

