-- ==== Sys2Proof/WellFormed.lean ====
section
/-! DEFINITION. The checks a command's operands meet when the event they name can arise. -/

namespace Sys2Proof

/-- BAD_COMMAND carries a code that names no command (R172, R185: codes 1 to 8 name one); BAD_OPERATION carries an
operation code other than NONE, LOAD and ERASE (R185); a completion delivers fewer than 2^32 bytes, the longest access a
descriptor's 32-bit length can ask for. -/
def Instr.wellFormed : Instr → Bool
  | .badCommand code => code == 0 || 8 < code.toNat
  | .badOperation _ _ code => 2 < code.toNat
  | .accessCompletion _ data => data.length < 4294967296
  | _ => true

end Sys2Proof
end

