-- ==== Sys2Proof/Certificates/Slice0/Obligations.lean ====
section
/-! DEFINITION. The statements for the provers, from the numbered rules of spec/. Where a statement says how the state
changes it gives the whole next state, or names every part that may change: what it does not name is unchanged. -/

open Sys2Proof Sys2Proof.Machine

/-! ### The machine as a whole -/

/-- A step takes the command at the front of the queue and runs it on the state with the queue's rest. On an empty queue the
block idles: that is the model's choice (log 4). -/
def Obligations.StepRunsTheFrontCommand : Prop :=
  (∀ (c : Instr) (rest : List Instr) (s : State), step (s.setPending (c :: rest)) = exec c (s.setPending rest)) ∧
    ∀ s : State, s.pending = [] → step s = .next s

/-- No command changes the queue of the commands that wait behind it; the queue is the model's (log 37). -/
def Obligations.ExecLeavesTheQueue : Prop :=
  ∀ (c : Instr) (s t : State), exec c s = .next t → t.pending = s.pending

/-- The state after power-on reset meets every invariant that the statements below say a step keeps. -/
def Obligations.ResetMeetsTheInvariants : Prop :=
  State.reset.LineDriven ∧ State.reset.StoreSound ∧ State.reset.KeysSound ∧ State.reset.DebtsBounded ∧
    State.reset.WindowsBounded ∧ State.reset.SideBounded ∧ State.reset.FaultQueueSound ∧ State.reset.PagesSound

/-- R183: the interrupt line is asserted exactly when some event flag and its enable bit are both set: every step keeps it
so. A raise of an enabled flag asserts it, a write to EVENTS or EVENT_ENABLE decides it at once, and every reset clears both
registers and releases it (RESET then sets COMMAND_DONE). -/
def Obligations.StepKeepsTheLineDriven : Prop :=
  (∀ s t : State, s.LineDriven → step s = .next t → t.LineDriven) ∧
    (∀ (s : State) (f : EventFlag), f.bit &&& s.control.enable ≠ 0 → (s.raise f).control.line = true) ∧
    (∀ (s t : State) (v : Word), exec (.events v) s = .next t ∨ exec (.eventEnable v) s = .next t → t.LineDriven) ∧
    ∀ s : State,
      (∃ t, exec .powerOnReset s = .next t ∧ t.control.events = 0 ∧ t.control.enable = 0 ∧ t.control.line = false) ∧
      (∃ t, exec .busFunctionReset s = .next t ∧ t.control.events = 0 ∧ t.control.enable = 0 ∧ t.control.line = false) ∧
      ∃ t, exec .reset s = .next t ∧ t.control.events = 1 ∧ t.control.enable = 0 ∧ t.control.line = false

/-- Every step keeps the written places of the cell store, and what it keeps of the contents of the others, in their canonical
form: strictly rising, each with the 200 bytes of a cell (R113, R118, R119, R128). -/
def Obligations.StepKeepsTheStoreSound : Prop :=
  ∀ s t : State, s.StoreSound → step s = .next t → t.StoreSound

/-- R94, R95, R98, R99: KEY_BUSY is 1 exactly while an install is in flight, a slot is INSTALLING exactly when that install
writes it, no active slot of a record in force is INSTALLING, and a CLEAR record is never in force. -/
def Obligations.StepKeepsTheKeysSound : Prop :=
  ∀ s t : State, s.KeysSound → step s = .next t → t.KeysSound

/-- R63: no debt exceeds 8 cells. -/
def Obligations.StepKeepsTheDebtsBounded : Prop :=
  ∀ s t : State, s.DebtsBounded → step s = .next t → t.DebtsBounded

/-- R32: a window's count stays within 0..4. -/
def Obligations.StepKeepsTheWindowsBounded : Prop :=
  ∀ s t : State, s.WindowsBounded → step s = .next t → t.WindowsBounded

/-- R139, R140, R144: the side queue never exceeds 32 entries, the returning messages included. -/
def Obligations.StepKeepsTheSideBounded : Prop :=
  ∀ s t : State, s.SideBounded → step s = .next t → t.SideBounded

/-- R166: a write is in flight or just ended exactly while the queue holds a request, and behind the head each program has at
most one. -/
def Obligations.StepKeepsTheFaultQueueSound : Prop :=
  ∀ s t : State, s.FaultQueueSound → step s = .next t → t.FaultQueueSound

/-- R116: every cell store page is in exactly one place at all times. -/
def Obligations.StepKeepsThePagesSound : Prop :=
  ∀ s t : State, s.PagesSound → step s = .next t → t.PagesSound

/-- R179, R185: DIRECTORY changes at the writes of its two words and at the resets that clear it, and at nothing else. -/
def Obligations.DirectoryChangesOnlyAtItsWrites : Prop :=
  ∀ (c : Instr) (s t : State), exec c s = .next t → t.control.directory ≠ s.control.directory →
    (∃ v, c = .registerWrite .directoryLow v) ∨ (∃ v, c = .registerWrite .directoryHigh v) ∨ c = .powerOnReset ∨
      c = .busFunctionReset

/-- R175: the interval number changes at a boundary, at START completion and at the resets, and at nothing else. -/
def Obligations.IntervalNumberChangesOnlyAtBoundaries : Prop :=
  ∀ (c : Instr) (s t : State), exec c s = .next t → t.timer.number ≠ s.timer.number →
    (∃ b, c = .boundary b) ∨ c = .startComplete ∨ c = .reset ∨ c = .powerOnReset ∨ c = .busFunctionReset

/-- R93: a key slot changes at a KEY_DATA write, at an install end, at an ERASE and at the resets, and at nothing else: not at
START, STOP, HALT or a program's start. -/
def Obligations.KeySlotsChangeOnlyThroughTheWindow : Prop :=
  ∀ (c : Instr) (s t : State), exec c s = .next t → t.keys.slots ≠ s.keys.slots →
    (∃ h, c = .keyData h) ∨ c = .installEnd ∨ (∃ p q, c = .erase p q) ∨ c = .reset ∨ c = .powerOnReset ∨
      c = .busFunctionReset

/-- No command is refused, and a command stops in one case alone: a CELL_REQUEST whose entry names a place that no build has
written (R118). That the model stops there is its choice (log 11). -/
def Obligations.OnlyAnUnwrittenPlaceStops : Prop :=
  ∀ (c : Instr) (s : State),
    (∀ r, exec c s ≠ .refused r) ∧
      ∀ f, exec c s = .fault f →
        f = .unwrittenPlace ∧ (∃ check, c = .cellRequest check) ∧ s.line.active = true ∧
          ∃ p page place,
            (s.line.sending.look p).entries[(s.line.sending.look p).next]? = some (.stored page place) ∧
              s.store.cells.read (placeIndex page place) = none

/-! ### The key unit -/

/-- R96: an accepted KEY_SELECT write sets the selection, the data index, the staged half and KEY_IGNORED, and the key result
its operation gives. While KEY_BUSY is 1 every KEY_SELECT and KEY_DATA write is ignored and sets KEY_IGNORED alone (R100). -/
def Obligations.KeySelectSetsTheSelection : Prop :=
  ∀ (p : Program) (q : Parity) (code : BitVec 3) (half : Word) (s : State),
    (s.keys.busy = false →
      exec (.keySelectNone p q) s =
          .next { s with keys := { s.keys with
            selProgram := p, selParity := q, selOperation := .none, dataIndex := 0, staged := 0, ignored := false
            result := .none } } ∧
        exec (.load p q) s =
          .next { s with keys := { s.keys with
            selProgram := p, selParity := q, selOperation := .load, dataIndex := 0, staged := 0, ignored := false
            result := .none } } ∧
        (2 < code.toNat →
          exec (.badOperation p q code) s =
            .next { s with keys := { s.keys with
              selProgram := p, selParity := q, selOperation := .none, dataIndex := 0, staged := 0, ignored := false
              result := .badOperation } })) ∧
      (s.keys.busy = true →
        ∀ c, c = .keySelectNone p q ∨ c = .load p q ∨ c = .erase p q ∨ c = .badOperation p q code ∨ c = .keyData half →
          exec c s = .next { s with keys := { s.keys with ignored := true } })

/-- R97: an accepted ERASE is refused where the record is in force and the slot is its active parity; otherwise the slot
becomes EMPTY, whatever it held. Every other slot, every event flag and all else stays, STATUS shows the key result, and in
a sound unit no slot is INSTALLING then. -/
def Obligations.EraseEmptiesAnUnprotectedSlot : Prop :=
  ∀ (p : Program) (q : Parity) (s : State), s.keys.busy = false →
    ((s.keys.records.look p).inForce = true ∧ (s.keys.records.look p).active = some q →
      ∃ t, exec (.erase p q) s = .next t ∧ (statusWord t).extractLsb' 29 3 = 3 ∧
        t = { s with keys := { s.keys with
          selProgram := p, selParity := q, selOperation := .erase, dataIndex := 0, staged := 0, ignored := false
          result := .refusedActive } }) ∧
    (¬ ((s.keys.records.look p).inForce = true ∧ (s.keys.records.look p).active = some q) →
      ∃ t, exec (.erase p q) s = .next t ∧ t.keys.slot p q = .empty ∧ (statusWord t).extractLsb' 29 3 = 2 ∧
        (∀ p' q', (p', q') ≠ (p, q) → t.keys.slot p' q' = s.keys.slot p' q') ∧
        t = { s with keys := { s.keys with
          slots := t.keys.slots, selProgram := p, selParity := q, selOperation := .erase, dataIndex := 0, staged := 0
          ignored := false, result := .erased } }) ∧
    (s.keys.Sound → ∀ p' q', s.keys.slot p' q' ≠ .installing)

/-- R98: the first KEY_DATA write stages the low half, the second starts the install or is refused for a protected slot, and
any other is ignored; KEY_DATA reads 0 and no register shows the staged half. -/
def Obligations.KeyDataLoadsTheSelectedSlot : Prop :=
  ∀ (half : Word) (s : State),
    (¬ (s.keys.busy = false ∧ s.keys.selOperation = .load ∧ s.keys.dataIndex.toNat < 2) →
      exec (.keyData half) s = .next { s with keys := { s.keys with ignored := true } }) ∧
    (s.keys.busy = false → s.keys.selOperation = .load → s.keys.dataIndex = 0 →
      exec (.keyData half) s = .next { s with keys := { s.keys with staged := half, dataIndex := 1 } }) ∧
    (s.keys.busy = false → s.keys.selOperation = .load → s.keys.dataIndex = 1 →
      ((s.keys.records.look s.keys.selProgram).inForce = true ∧
          (s.keys.records.look s.keys.selProgram).active = some s.keys.selParity →
        exec (.keyData half) s =
          .next { s with keys := { s.keys with dataIndex := 2, staged := 0, result := .refusedActive } }) ∧
      (¬ ((s.keys.records.look s.keys.selProgram).inForce = true ∧
          (s.keys.records.look s.keys.selProgram).active = some s.keys.selParity) →
        ∃ t, exec (.keyData half) s = .next t ∧ t.keys.slot s.keys.selProgram s.keys.selParity = .installing ∧
          (∀ p q, (p, q) ≠ (s.keys.selProgram, s.keys.selParity) → t.keys.slot p q = s.keys.slot p q) ∧
          t = { s with keys := { s.keys with
            slots := t.keys.slots, dataIndex := 2, staged := 0, busy := true
            install := some { program := s.keys.selProgram, parity := s.keys.selParity, word := half ++ s.keys.staged } } })) ∧
    readRegister s 0x1C = some 0 ∧
    ∀ (x : Word) (offset : Nat),
      readRegister { s with keys := { s.keys with staged := x } } offset = readRegister s offset

/-- R99: at the install end the slot becomes LOADED with the installed word, KEY_BUSY becomes 0, the key result becomes LOADED
and KEY_DONE is raised; nothing else changes. -/
def Obligations.InstallEndLoadsTheSlot : Prop :=
  ∀ (s : State) (i : Install), s.keys.install = some i →
    ∃ t, exec .installEnd s = .next t ∧ t.keys.slot i.program i.parity = .loaded i.word ∧
      (∀ p q, (p, q) ≠ (i.program, i.parity) → t.keys.slot p q = s.keys.slot p q) ∧
      t = { s with
        keys := { s.keys with slots := t.keys.slots, install := none, busy := false, result := .loaded }
        control := { s.control with
          events := s.control.events ||| 0x20, line := ((s.control.events ||| 0x20) &&& s.control.enable) != 0 } }

/-- R101: a KEY_CHECK read returns the check holding and starts a capture of the selected slot if none is in flight, whatever
KEY_BUSY and the selection's operation; no later KEY_SELECT write, erase or install end changes a capture in flight, and a
slot sampled INSTALLING is recorded so. -/
def Obligations.KeyCheckReadStartsOneCapture : Prop :=
  (∀ s : State, s.keys.capture = none →
    exec .keyCheck s = .next { s with
      control := { s.control with readData := holdingWord s.keys.holding }
      keys := { s.keys with
        capture := some { program := s.keys.selProgram, parity := s.keys.selParity
                          slot := s.keys.slot s.keys.selProgram s.keys.selParity } } }) ∧
  (∀ (s : State) (x : Capture), s.keys.capture = some x →
    exec .keyCheck s = .next { s with control := { s.control with readData := holdingWord s.keys.holding } }) ∧
  (∀ (s t : State) (x : Capture) (c : Instr) (p : Program) (q : Parity) (code : BitVec 3), s.keys.capture = some x →
    c = .keySelectNone p q ∨ c = .load p q ∨ c = .erase p q ∨ c = .badOperation p q code ∨ c = .installEnd →
    exec c s = .next t → t.keys.capture = some x) ∧
  ∀ (s t : State) (x : Capture), s.keys.capture = some x → x.slot = .installing → exec .captureEnd s = .next t →
    t.keys.holding.state = .installing

/-- R102: at the capture end the check holding takes the sampled values and stale becomes 0; nothing else changes. -/
def Obligations.CaptureEndReplacesTheHolding : Prop :=
  ∀ (s : State) (x : Capture), s.keys.capture = some x →
    exec .captureEnd s = .next { s with keys := { s.keys with
      capture := none
      holding :=
        { program := x.program, parity := x.parity
          state := match x.slot with
            | .empty => .empty
            | .installing => .installing
            | .loaded _ => .loaded
          check := match x.slot with
            | .loaded word => (Config.cellPermutation word 0).extractLsb' 40 24
            | _ => 0
          stale := false } } }

/-- R104: a switch for line interval n is due at the decision for m when (m − n) mod 2^32 is below 2^31, that is when n is m
or lies up to 2,147,483,647 intervals before it. -/
def Obligations.SwitchIsDueWithinHalfTheRange : Prop :=
  ∀ m n : Word,
    (switchDue m n = true ↔ ((m.toNat : Int) - n.toNat) % 4294967296 < 2147483648) ∧
      (switchDue m n = true ↔ ∃ back : Nat, back ≤ 2147483647 ∧ m = n + BitVec.ofNat 32 back)

/-- R103, R105, R106: what a handed pair and a parity decision do to a parity record. -/
def Obligations.ParityDecisionFollowsTheSchedule : Prop :=
  (∀ (r : ParityRecord) (q : Parity) (n : Word),
    (r.active = some q → r.handed q n = { r with pending := none, switchHeld := false }) ∧
    (r.active ≠ some q → r.handed q n = { r with pending := some (q, n), switchHeld := false })) ∧
  ∀ (r : ParityRecord) (slots : KeyPair) (m : Word),
    (∀ q n w, r.pending = some (q, n) → switchDue m n = true → slots.slot q = .loaded w →
      r.decision slots m = { r with inForce := true, active := some q, pending := none, switchHeld := false }) ∧
    (∀ q n, r.pending = some (q, n) → switchDue m n = true → (∀ w, slots.slot q ≠ .loaded w) →
      (r.inForce = true → r.decision slots m = { r with switchHeld := true }) ∧
      (r.inForce = false → slots.even ≠ .installing →
        r.decision slots m = { r with inForce := true, active := some .even, switchHeld := true }) ∧
      (r.inForce = false → slots.even = .installing →
        r.decision slots m = { r with active := some .even, switchHeld := true })) ∧
    ((∀ q n, r.pending = some (q, n) → switchDue m n = false) →
      (r.inForce = true → r.decision slots m = r) ∧
      (r.inForce = false → slots.even ≠ .installing →
        r.decision slots m = { r with inForce := true, active := some .even }) ∧
      (r.inForce = false → slots.even = .installing → r.decision slots m = { r with active := some .even }))

/-- R109, R110: a receiver that holds the word inverts the chain over any used payload; the chain keeps the payload's length
and leaves the residue after the last whole 8-byte unit clear. -/
def Obligations.ReceiverInvertsTheChain : Prop :=
  ∀ (permute : Equiv.Perm Long) (seed : Long) (payload : List Byte),
    unchainUnits permute.symm seed (chainUnits permute seed payload) = payload ∧
      (chainUnits permute seed payload).length = payload.length ∧
      (chainUnits permute seed payload).drop (8 * (payload.length / 8)) = payload.drop (8 * (payload.length / 8))

/-! ### The registers and the commands -/

/-- R182, R185: writing 1 to a flag's position of EVENTS clears it and writing 0 leaves it; EVENT_ENABLE takes the bits written; a
raised flag is set and the others stay; the line follows. A write to a word of DIRECTORY is read back from that word and leaves
the other; STATUS and KEY_CHECK ignore a write. Nothing else changes. -/
def Obligations.RegisterWritesTakeEffect : Prop :=
  ∀ (v : Word) (s : State),
    (∃ t, exec (.events v) s = .next t ∧
      (∀ i < 8, t.control.events.getLsbD i = (s.control.events.getLsbD i && !v.getLsbD i)) ∧
      t = { s with control := { s.control with
        events := t.control.events, line := (t.control.events &&& s.control.enable) != 0 } }) ∧
    (∃ t, exec (.eventEnable v) s = .next t ∧
      (∀ i < 8, t.control.enable.getLsbD i = v.getLsbD i) ∧
      t = { s with control := { s.control with
        enable := t.control.enable, line := (s.control.events &&& t.control.enable) != 0 } }) ∧
    (∀ (f : EventFlag) (i : Nat),
      (s.raise f).control.events.getLsbD i = (s.control.events.getLsbD i || f.bit.getLsbD i)) ∧
    exec (.registerWrite .status v) s = .next s ∧ exec (.registerWrite .keyCheck v) s = .next s ∧
    (∃ t, exec (.registerWrite .directoryLow v) s = .next t ∧ readRegister t 0x08 = some v ∧
      readRegister t 0x0C = readRegister s 0x0C ∧
      t = { s with control := { s.control with directory := t.control.directory } }) ∧
    ∃ t, exec (.registerWrite .directoryHigh v) s = .next t ∧ readRegister t 0x0C = some v ∧
      readRegister t 0x08 = readRegister s 0x08 ∧
      t = { s with control := { s.control with directory := t.control.directory } }

/-- R186: each field of STATUS shows its state, the completion code that of the last command and its result; after power-on or
bus function reset STATUS reads 0, after RESET it reads completion code 28 alone. That bits 20..19 read 0 while START, HALT or
TEST_PAGES is in flight is the model's choice (log 43): R186 gives the field no value in STARTING, HALTING and TESTING. -/
def Obligations.StatusShowsItsFields : Prop :=
  (∀ s : State,
    (statusWord s).extractLsb' 0 16 = s.timer.number.extractLsb' 0 16 ∧
    (∀ x ∈ [(DeviceState.idle, 0), (.starting, 1), (.running, 2), (.draining, 3), (.halting, 4), (.testing, 5)],
      s.control.device = x.1 → (statusWord s).extractLsb' 16 3 = BitVec.ofNat 3 x.2) ∧
    (∀ x ∈ [(none, 0), (some CommandName.start, 0), (some .halt, 0), (some .testPages, 0), (some .loadFilters, 1)
        , (some .reloadRegions, 2), (some .probe, 3)],
      s.control.inFlight = x.1 → (statusWord s).extractLsb' 19 2 = BitVec.ofNat 2 x.2) ∧
    (∀ x ∈ [(none, CmdResult.none, 0), (none, .badCommand, 1), (some CommandName.start, .ok, 2), (some .start, .badConfig, 3)
        , (some .start, .directoryAccess, 4), (some .start, .tableInvalid, 5), (some .start, .wrongState, 6)
        , (some .stop, .ok, 7), (some .stop, .wrongState, 8), (some .halt, .ok, 9), (some .halt, .wrongState, 10)
        , (some .loadFilters, .ok, 11), (some .loadFilters, .tableInvalid, 12), (some .loadFilters, .tableAccess, 13)
        , (some .loadFilters, .wrongState, 14), (some .reloadRegions, .ok, 15), (some .reloadRegions, .tableInvalid, 16)
        , (some .reloadRegions, .tableAccess, 17), (some .reloadRegions, .wrongState, 18), (some .testPages, .ok, 19)
        , (some .testPages, .interrupted, 20), (some .testPages, .directoryAccess, 21), (some .testPages, .badOperand, 22)
        , (some .testPages, .wrongState, 23), (some .probe, .ok, 24), (some .probe, .noTable, 25)
        , (some .probe, .directoryAccess, 26), (some .probe, .wrongState, 27), (some .reset, .ok, 28)],
      s.control.last = x.1 → s.control.result = x.2.1 → (statusWord s).extractLsb' 21 5 = BitVec.ofNat 5 x.2.2) ∧
    (statusWord s).getLsbD 26 = s.control.ignored ∧ (statusWord s).getLsbD 27 = s.keys.busy ∧
    (statusWord s).getLsbD 28 = s.keys.ignored ∧
    (∀ x ∈ [(KeyResult.none, 0), (.loaded, 1), (.erased, 2), (.refusedActive, 3), (.badOperation, 4)],
      s.keys.result = x.1 → (statusWord s).extractLsb' 29 3 = BitVec.ofNat 3 x.2)) ∧
  ∀ s t : State,
    (exec .powerOnReset s = .next t → statusWord t = 0) ∧ (exec .busFunctionReset s = .next t → statusWord t = 0) ∧
      (exec .reset s = .next t → statusWord t = BitVec.ofNat 32 (28 * 2 ^ 21))

/-- R185: every well-formed command that a register write makes is the command its word decodes to, with every operand. -/
def Obligations.RegisterWordsDecodeBack : Prop :=
  ∀ (c : Instr) (offset : Nat) (word : Word), c.wellFormed = true → c.registerAccess = some (offset, word) →
    decodeRegisterWrite offset word = some c

/-- R172: with a command in flight another command is ignored and sets CMD_IGNORED alone; otherwise a code that names no
command completes at once with BAD_COMMAND, and a command whose acceptance states do not include the device state with
WRONG_STATE. -/
def Obligations.CommandsAreTurnedAway : Prop :=
  ∀ (first count : BitVec 12) (code : Byte) (s : State),
    (∀ x ∈ [(Instr.start, CommandName.start, [DeviceState.idle]), (.stop, .stop, [.running])
        , (.loadFilters, .loadFilters, [.idle, .running, .draining]), (.reloadRegions, .reloadRegions, [.running, .draining])
        , (.testPages first count, .testPages, [.idle]), (.probe, .probe, [.idle, .running, .draining])],
      (∀ f, s.control.inFlight = some f → exec x.1 s = .next { s with control := { s.control with ignored := true } }) ∧
      (s.control.inFlight = none → s.control.device ∉ x.2.2 →
        exec x.1 s = .next { s with control := { s.control with
          ignored := false, last := some x.2.1, result := .wrongState, events := s.control.events ||| 1
          line := ((s.control.events ||| 1) &&& s.control.enable) != 0 } })) ∧
    (s.control.inFlight = none →
      exec (.badCommand code) s = .next { s with control := { s.control with
        ignored := false, last := none, result := .badCommand, events := s.control.events ||| 1
        line := ((s.control.events ||| 1) &&& s.control.enable) != 0 } })

/-- R171, R172, R173 steps 1 to 6, with R42, R67, R137 and R162: a START in IDLE puts the device in STARTING and begins the
unchecked read of the 96 directory bytes; with a DIRECTORY that is 0 or no multiple of 8 it has failed with DIRECTORY_ACCESS. The
end of each of its four reads takes the step that follows it: settings in range are kept, a region table, a code table and a
filter table that pass their checks come into force, each followed by the next read, and the first step that fails gives START
its result. What the three tables' checks accept, and the values read, stand for every load of such a table. Two points are the model's:
that a START which fails at its directory step, or whose code table read faults, leaves the settings and the code table of an earlier
START in place, on which R173 and R67 are silent (log 30, a deduction), and that each of the four reads is one access (log 23). -/
def Obligations.StartReadsTheDirectory : Prop :=
  (∀ s : State, s.control.inFlight = none → s.control.device = .idle →
    (s.control.directory ≠ 0 ∧ s.control.directory.toNat % 8 = 0 →
      exec .start s = .next { s with
        control := { s.control with
          ignored := false, inFlight := some .start, device := .starting
          start := some (.reading .directory s.control.directory) }
        link := { s.link with
          accesses := s.link.accesses ++
            [{ tag := s.link.nextTag, agent := .start, kind := .read, addr := s.control.directory, length := 96, key := none
               region := 0xFF, data := [] }]
          nextTag := s.link.nextTag + 1 } }) ∧
    (s.control.directory = 0 ∨ s.control.directory.toNat % 8 ≠ 0 →
      exec .start s = .next { s with control := { s.control with
        ignored := false, inFlight := some .start, device := .starting, start := some (.ended .directoryAccess) } })) ∧
  (∀ (s : State) (pre post : List Access) (a : Access) (data : List Byte) (step : StartStep) (d : Long),
    s.link.accesses = pre ++ a :: post → (∀ x ∈ pre, x.tag ≠ a.tag) → (∀ x ∈ post, x.tag ≠ a.tag) → a.agent = .start →
    s.control.start = some (.reading step d) →
    let rest : State := { s with link := { s.link with accesses := pre ++ post } }
    let ends := fun (u : State) (r : CmdResult) => ({ u with control := { u.control with start := some (.ended r) } } : State)
    let reads := fun (u : State) (next : StartStep) (key : Option Byte) (addr : Long) (length : Nat) (region : Byte) =>
      ({ u with
        control := { u.control with start := some (.reading next d) }
        link := { u.link with
          accesses := u.link.accesses ++
            [{ tag := s.link.nextTag, agent := .start, kind := .read, addr := addr, length := length, key := key
               region := region, data := [] }]
          nextTag := s.link.nextTag + 1 } } : State)
    (∀ c, c = .busError a.tag ∨ c = .completionTimeout a.tag → exec c s = .next (ends rest .directoryAccess)) ∧
    (a.kind = .read → a.length = data.length →
      (step = .directory →
        let long := fun off => BitVec.ofNat 64 (leNat data off 8)
        let g : Settings :=
          { directory := d, programTable := long 0x00, codeTable := long 0x08, filterTable := long 0x10
            regionTable := long 0x18, reportBase := long 0x20, period := leNat data 0x28 4, cpi := leNat data 0x2C 2
            sMax := leNat data 0x2E 2, kfKey := leNat data 0x30 1, kfPred := leNat data 0x31 1, kfBi := leNat data 0x32 1
            deadZone := leNat data 0x33 1, reportSlots := leNat data 0x34 2, firstProgram := Fin.ofNat 16 (leNat data 0x36 1)
            lastProgram := Fin.ofNat 16 (leNat data 0x37 1) }
        let inRange := 10000 ≤ g.period ∧ g.period ≤ 100000 ∧ 256 ≤ g.cpi ∧ g.cpi ≤ 8192 ∧
          (g.sMax = 0 ∨ (6 ≤ g.sMax ∧ g.sMax ≤ g.cpi / 4)) ∧ (∀ kf ∈ [g.kfKey, g.kfPred, g.kfBi], 1 ≤ kf ∧ kf ≤ 32) ∧
          g.deadZone ≤ 7 ∧ 4 ≤ g.reportSlots ∧ g.reportSlots ≤ 1024 ∧ leNat data 0x36 1 ≤ 15 ∧ leNat data 0x37 1 ≤ 15 ∧
          ∀ x ∈ [g.reportBase, g.programTable, g.codeTable, g.filterTable, g.regionTable], x ≠ 0 ∧ x.toNat % 8 = 0
        (inRange → exec (.accessCompletion a.tag data) s =
          .next (reads { rest with control := { s.control with settings := some g } } .regions none g.regionTable 192 0xFF)) ∧
        (¬ inRange → exec (.accessCompletion a.tag data) s = .next (ends rest .badConfig))) ∧
      (step = .regions →
        (readRegions data = none → exec (.accessCompletion a.tag data) s = .next (ends rest .tableInvalid)) ∧
        ∀ table, readRegions data = some table →
          let loaded : State := { rest with link := { rest.link with regions := some table } }
          let request := readRequest .start (some 0) s.settingsD.codeTable 520
          (∀ region, checkAccess (some table) request = .ok region →
            exec (.accessCompletion a.tag data) s =
              .next (reads loaded .codes (some 0) s.settingsD.codeTable 520 region)) ∧
          ∀ e, checkAccess (some table) request = .error e →
            exec (.accessCompletion a.tag data) s = .next (ends loaded .directoryAccess)) ∧
      (step = .codes →
        let kept := fun table => ({ rest with recoder := { s.recoder with codeTable := table } } : State)
        let request := readRequest .start (some 0) s.settingsD.filterTable 496
        (readCodeTable data = none → exec (.accessCompletion a.tag data) s = .next (ends (kept none) .tableInvalid)) ∧
        ∀ table, readCodeTable data = some table →
          (∀ region, checkAccess s.link.regions request = .ok region →
            exec (.accessCompletion a.tag data) s =
              .next (reads (kept (some table)) .filters (some 0) s.settingsD.filterTable 496 region)) ∧
          ∀ e, checkAccess s.link.regions request = .error e →
            exec (.accessCompletion a.tag data) s = .next (ends (kept (some table)) .directoryAccess)) ∧
      (step = .filters →
        (readFilterTable data = none → exec (.accessCompletion a.tag data) s = .next (ends rest .tableInvalid)) ∧
        ∀ table, readFilterTable data = some table →
          exec (.accessCompletion a.tag data) s =
            .next (ends { rest with side := { s.side with table := some table } } .ok)))) ∧
  (∀ data : List Byte,
    let base := fun i => leNat data (24 * i) 8
    let length := fun i => leNat data (24 * i + 8) 8
    let rights := fun i => leNat data (24 * i + 16) 1
    let key := fun i => leNat data (24 * i + 17) 1
    (readRegions data = none ↔
      ∃ i < 8, length i ≠ 0 ∧ (2 < rights i ∨ 15 < key i ∨ 18446744073709551616 < base i + length i)) ∧
    ∀ table, readRegions data = some table → table.length = 8 ∧ ∀ i r, table[i]? = some r →
      r.base.toNat = base i ∧ r.length.toNat = length i ∧
        (length i ≠ 0 → r.key.toNat = key i ∧ (r.rights = .none ↔ rights i = 0) ∧ (r.rights = .read ↔ rights i = 1) ∧
          (r.rights = .readWrite ↔ rights i = 2))) ∧
  (∀ data : List Byte,
    (readCodeTable data = none ↔ ∃ i < 130, leNat data (4 * i) 1 = 0 ∨ 16 < leNat data (4 * i) 1) ∧
    ∀ table, readCodeTable data = some table → table.length = 130 ∧ ∀ i x, table[i]? = some x →
      x.length = leNat data (4 * i) 1 ∧ x.value.toNat = leNat data (4 * i + 2) 2) ∧
  ∀ data : List Byte,
    let at' := fun f => 16 + 80 * f
    (readFilterTable data = none ↔ 1 < leNat data 1 1 ∨ ∃ f < 6, (byteAt data (at' f)).getLsbD 0 = true ∧
      (2 < leNat data (at' f + 1) 1 ∨ leNat data (at' f + 2) 1 = 0 ∨ 64 < leNat data (at' f + 2) 1)) ∧
    ∀ table, readFilterTable data = some table →
      table.broadcast = (byteAt data 0).getLsbD 0 ∧ table.defaultCarry = decide (leNat data 1 1 = 0) ∧
        table.groups.toNat = leNat data 8 8 ∧ table.filters.length = 6 ∧ ∀ f x, table.filters[f]? = some x →
          x.enabled = (byteAt data (at' f)).getLsbD 0 ∧
            (x.enabled = true → (x.action = .carry ↔ leNat data (at' f + 1) 1 = 0) ∧
              (x.action = .drop ↔ leNat data (at' f + 1) 1 = 1) ∧ (x.action = .cue ↔ leNat data (at' f + 1) 1 = 2) ∧
              x.compare = leNat data (at' f + 2) 1 ∧ x.mask.toNat = leNat data (at' f + 8) 8 ∧
              ∀ i < 64, x.pattern[i]? = some (byteAt data (at' f + 16 + i)))

/-- R173, R174: START's end. A failing result brings the device back to IDLE and changes nothing but the control unit. OK
gives every block the run state its own rule names, starts the timer at interval number 0 and the line, and begins intake 0;
the contents of the store's pages stay (R128). Two clauses are the model's: the completion reports still on their way are
dropped with the allocator's other state (log 20), and the scratch buffers, which R68 leaves not defined at START, keep their
bytes (log 9). -/
def Obligations.StartCompletionBeginsTheRun : Prop :=
  ∀ (s : State) (r : CmdResult), s.control.start = some (.ended r) →
    (r ≠ .ok →
      exec .startComplete s = .next { s with control := { s.control with
        device := .idle, start := none, notice := false, drainEnding := false, inFlight := none, last := some .start
        result := r, events := s.control.events ||| 1
        line := ((s.control.events ||| 1) &&& s.control.enable) != 0 } }) ∧
    (r = .ok →
      ∃ t, exec .startComplete s = .next t ∧
        t.control = { s.control with
          device := .running, start := none, notice := false, drainEnding := false, inFlight := none, last := some .start
          result := .ok, events := s.control.events ||| 1
          line := ((s.control.events ||| 1) &&& s.control.enable) != 0 } ∧
        t.timer = { period := s.settingsD.period, number := 0, running := true } ∧
        t.link.regions = s.link.regions ∧
        (∀ p, (t.ctx p).state = .off ∧ (t.ctx p).window.head = 0 ∧ (t.ctx p).window.count = 0 ∧ (t.ctx p).live = none ∧
          (t.ctx p).nextRecord = 0 ∧ (t.ctx p).refused = .none ∧ (t.ctx p).lastOutcome = none ∧
          (t.ctx p).takeNumber = (s.ctx p).takeNumber) ∧
        (∃ i, t.controller.intake = some i ∧ i.interval = 0) ∧
        t.allocator = { Allocator.reset with isOpen := true } ∧
        t.recoder = { Recoder.reset with
          codeTable := s.recoder.codeTable, re0 := { s.recoder.re0 with phase := .idle }
          re1 := { s.recoder.re1 with phase := .idle } } ∧
        t.keys = { s.keys with records := PerProgram.fill ParityRecord.reset } ∧
        t.side = { Side.reset with table := s.side.table } ∧
        t.store = { Store.reset with
          free := (List.range 2048).filter fun p => !s.store.retired.contains p, retired := s.store.retired
          residue := s.store.contents } ∧
        t.line = { Line.reset with active := true } ∧
        t.reporter = { Reporter.reset with isOn := true })

/-- R177, with R15, R58, R90, R119, R127, R139, R144 and R157: HALT in each device state. In STARTING, RUNNING, DRAINING and TESTING
every block ends its work at once: the accesses of the commands, of the engines and of the side path are dropped, and the pages of the
jobs, of the side build and of the line's lists return, the marked ones into the retired set. A page under test keeps its place, and
between two pages the record is written. An intake that waits for an access ends with it; without one the controller goes on with the
windows (HaltCompletes). In IDLE HALT ends the command in flight, and with none it completes with WRONG_STATE; in both cases it empties
the side queue and clears the debts. Of these points the model's are: that a HALT which completes with WRONG_STATE is a HALT taken as
well (log 42), that the allocator's interval is closed by HALT (log 13), the order of the returns (log 12), that of a round of status
parts in progress the part in flight is written to its end (log 27), that an intake ends with the access in flight (log 15), in which
device states the status parts are written (log 14), and what HALT leaves of a test whose last page has ended (log 22). -/
def Obligations.HaltEndsTheWorkOfEveryBlock : Prop :=
  ∀ s : State,
    (s.control.device = .halting → exec .halt s = .next { s with control := { s.control with ignored := false } }) ∧
    (s.control.device = .idle → s.control.inFlight = none →
      exec .halt s = .next { s with
        control := { s.control with
          ignored := false, last := some .halt, result := .wrongState, events := s.control.events ||| 1
          line := ((s.control.events ||| 1) &&& s.control.enable) != 0 }
        link := { s.link with accesses := s.link.accesses.filter fun a => a.agent ≠ .side }
        allocator := { s.allocator with debt := PerProgram.fill 0, inFlight := none, isOpen := false }
        side := { s.side with queue := [], reserved := [], build := none, stopped := false }
        store := (s.side.build.map fun b => s.store.giveBack [b.page]).getD s.store }) ∧
    (∀ c, s.control.device = .idle → s.control.inFlight = some c →
      ∃ t, exec .halt s = .next t ∧ t.link.regions = s.link.regions ∧
        t = { s with
          control := { s.control with
            ignored := false, inFlight := none, filterLoad := none, regionReload := none, probe := none, last := some .halt
            result := .ok, events := s.control.events ||| 1
            line := ((s.control.events ||| 1) &&& s.control.enable) != 0 }
          link := t.link
          allocator := { s.allocator with debt := PerProgram.fill 0, inFlight := none, isOpen := false }
          side := { s.side with queue := [], reserved := [], build := none, stopped := false }
          store := (s.side.build.map fun b => s.store.giveBack [b.page]).getD s.store } ∧
        ∀ a ∈ t.link.accesses, a ∈ s.link.accesses ∧ a.agent ≠ .filterLoad ∧ a.agent ≠ .regionReload ∧ a.agent ≠ .probe) ∧
    (s.control.device ≠ .halting → s.control.device ≠ .idle →
      ∃ t, exec .halt s = .next t ∧
        t.control = { s.control with
          device := .halting, inFlight := some .halt, ignored := false, start := none, filterLoad := none
          regionReload := none, probe := none, notice := false, drainEnding := false, endedTest := none } ∧
        t.timer = { s.timer with running := false } ∧ t.link.regions = s.link.regions ∧
        t.allocator = { s.allocator with debt := PerProgram.fill 0, inFlight := none, isOpen := false } ∧
        t.recoder = { s.recoder with
          queue := [], re0 := { s.recoder.re0 with phase := .idle }, re1 := { s.recoder.re1 with phase := .idle }
          spare := 0 } ∧
        t.side = { s.side with queue := [], reserved := [], build := none, stopped := false } ∧
        t.line.active = false ∧ (∀ p, (t.line.building.look p).sequence = [] ∧ (t.line.sending.look p).entries = [] ∧
          t.line.holding.look p = []) ∧
        t.line.buildingPages = [] ∧ t.line.sendingPages = [] ∧ t.line.holdingPages = [] ∧
        t.keys.slots = s.keys.slots ∧ t.keys.install = s.keys.install ∧ t.keys.capture = s.keys.capture ∧
        t.reporter.faultQueue = s.reporter.faultQueue ∧ t.controller.halt.isSome = true ∧
        ∀ ps ∈ s.line.sendingPages :: s.line.buildingPages :: s.line.holdingPages ::
            (s.side.build.map SideBuild.page).toList :: s.recoder.jobs.map Job.pages,
          ∀ n ∈ ps, (n ∉ s.store.marks → n ∈ t.store.free) ∧ (n ∈ s.store.marks → n ∈ t.store.retired)) ∧
    (s.control.device ≠ .halting → s.control.device ≠ .idle →
      let jobsBack := s.recoder.jobs.foldl (fun store j => store.giveBack j.pages) s.store
      let sideBack := (s.side.build.map fun b => jobsBack.giveBack [b.page]).getD jobsBack
      let allBack := sideBack.giveBack (s.line.sendingPages ++ s.line.buildingPages ++ s.line.holdingPages)
      let ended : State := { s with
        control := { s.control with
          device := .halting, inFlight := some .halt, ignored := false, start := none, filterLoad := none
          regionReload := none, probe := none, notice := false, drainEnding := false, endedTest := none }
        timer := { s.timer with running := false }
        link := { s.link with
          accesses := s.link.accesses.filter fun a => a.agent ∉
            [.start, .filterLoad, .regionReload, .probe, .engine .re0, .engine .re1, .side] }
        controller := { s.controller with statusTodo := s.controller.statusTodo.take 1 }
        allocator := { s.allocator with debt := PerProgram.fill 0, inFlight := none, isOpen := false }
        recoder := { s.recoder with
          queue := [], re0 := { s.recoder.re0 with phase := .idle }, re1 := { s.recoder.re1 with phase := .idle }
          spare := 0 }
        side := { s.side with queue := [], reserved := [], build := none, stopped := false }
        line := { s.line with
          active := false, building := PerProgram.fill { deferred := [], picture := [], side := [] }, buildingPages := []
          sending := PerProgram.fill { entries := [], next := 0 }, sendingPages := [], holding := PerProgram.fill []
          holdingPages := [] }
        store := { allBack with
          test := s.store.test.map fun x =>
            match x.phase with
            | .pages .. => { x with interrupted := true }
            | _ => x }
        reporter := { s.reporter with
          work := s.reporter.work.map fun w => { w with figures := { w.figures with endsDrain := false } }
          waiting := s.reporter.waiting.map fun f => { f with endsDrain := false } } }
      let writes := decide (s.control.device = .running ∨ s.control.device = .draining) || s.controller.statusSeen
      ∃ v : State,
        ((∀ x, s.store.test = some x → x.phase ≠ .between) → v = ended) ∧
        (∀ x, s.store.test = some x → x.phase = .between → ended.RecordsTest { x with interrupted := true } v) ∧
        (∀ i, s.controller.intake = some i → i.phase ≠ .waitFinish → i.phase ≠ .allDone →
          exec .halt s = .next { v with controller := { v.controller with
            intake := some { i with halted := true }, halt := some (.waitIntake writes) } }) ∧
        ((∀ i, s.controller.intake = some i → i.phase = .waitFinish ∨ i.phase = .allDone) →
          exec .halt s = .next (State.haltAdvance writes programs
            { v with controller := { v.controller with intake := none } })))

/-- R15 and R177, with R6 and R13: what the controller does at HALT, and how HALT completes. In ascending order each program that is
not OFF has its window visited: ABANDONED into the outcome fields of each picture whose record is not FAULTED, then DONE, each under
HALT, a write that is refused or fails noted; behind the last one the window is empty and the program OFF. Then the 16 status parts
are written and the controller is done. The device leaves HALTING once the controller is done, the fault record queue is empty, no
report is being written and no test is in progress; the one completion is HALT's, or that of the TEST_PAGES it ended. Two points are
the model's deductions: that the visit waits for a finish of the program that is being written (log 16), and in which device states
the status parts are written (log 14). -/
def Obligations.HaltCompletes : Prop :=
  (∀ s : State, s.control.device = .halting → s.controller.halt = some .done → s.reporter.faultQueue = [] →
    s.reporter.work = none → s.store.test = none →
    exec .haltComplete s = .next { s with
      controller := { s.controller with halt := none }
      control := { s.control with
        device := .idle, inFlight := none, endedTest := none
        last := if s.control.endedTest = none then some .halt else some .testPages
        result := s.control.endedTest.getD .ok, events := s.control.events ||| 1
        line := ((s.control.events ||| 1) &&& s.control.enable) != 0 } }) ∧
  (∀ s : State,
    State.haltAdvance true [] s =
        ({ s with controller := { s.controller with halt := some .status } } : State).startStatus ∧
      State.haltAdvance false [] s = { s with controller := { s.controller with halt := some .done } }) ∧
  (∀ (s : State) (w : Bool) (p : Program) (rest : List Program),
    ((s.ctx p).state = .off → State.haltAdvance w (p :: rest) s = State.haltAdvance w rest s) ∧
    ((s.ctx p).state ≠ .off → (s.ctx p).finish ≠ none →
      State.haltAdvance w (p :: rest) s =
        { s with controller := { s.controller with halt := some (.waitFinish (p :: rest) w) } }) ∧
    (s.control.device = .halting → (s.ctx p).state ≠ .off → (s.ctx p).finish = none → (s.ctx p).window.count ≤ 4 →
      s.HaltVisits w p rest 0 (State.haltAdvance w (p :: rest) s))) ∧
  (∀ (s : State) (w : Bool) (todo : List Program) (p : Program), s.controller.halt = some (.waitFinish todo w) →
    s.finishEnded p = State.haltAdvance w todo { s with controller := { s.controller with
      programs := s.controller.programs.modify p fun c => { c with finish := none } } }) ∧
  (∀ (s : State) (pre post : List Access) (a : Access) (data : List Byte) (p : Program) (rest : List Program) (i : Nat)
      (w : Bool),
    s.link.accesses = pre ++ a :: post → (∀ x ∈ pre, x.tag ≠ a.tag) → (∀ x ∈ post, x.tag ≠ a.tag) → a.agent = .halt →
    a.kind = .write → s.control.device = .halting → (s.ctx p).window.count ≤ 4 →
    let after : State := { s with link := { s.link with accesses := pre ++ post } }
    let done : Request :=
      { agent := .halt, kind := .write, addr := ((s.ctx p).window.named i).record, length := 1
        key := some (s.ctx p).fixed.accessKey, data := [3] }
    (s.controller.halt = some (.outcome (p :: rest) i w) →
      (∀ region, checkAccess s.link.regions done = .ok region →
        exec (.accessCompletion a.tag data) s = .next { s with
          controller := { s.controller with halt := some (.state (p :: rest) i w) }
          link := { s.link with
            accesses := pre ++ post ++
              [{ tag := s.link.nextTag, agent := .halt, kind := .write, addr := done.addr, length := 1, key := done.key
                 region := region, data := [3] }]
            nextTag := s.link.nextTag + 1 } }) ∧
      ∀ e, checkAccess s.link.regions done = .error e →
        ∃ t, exec (.accessCompletion a.tag data) s = .next t ∧ (after.abandonNoted p).HaltVisits w p rest (i + 1) t) ∧
    (s.controller.halt = some (.state (p :: rest) i w) →
      ∃ t, exec (.accessCompletion a.tag data) s = .next t ∧ after.HaltVisits w p rest (i + 1) t) ∧
    (s.controller.halt = some (.outcome (p :: rest) i w) ∨ s.controller.halt = some (.state (p :: rest) i w) →
      ∀ c, c = .busError a.tag ∨ c = .completionTimeout a.tag →
        ∃ t, exec c s = .next t ∧ (after.abandonNoted p).HaltVisits w p rest (i + 1) t)) ∧
  ∀ (s : State) (w : Bool) (todo : List Program), (∀ p, p ∉ todo → (s.ctx p).state = .off) →
    let t := State.haltAdvance w todo s
    t.controller.halt = some .status ∨ t.controller.halt = some .done →
    ∀ p, (t.ctx p).state = .off ∧ ((s.ctx p).state ≠ .off → (t.ctx p).window.count = 0)

/-- R137: an accepted LOAD_FILTERS reads the 496 bytes of the filter table with key 0, at the address the directory gave at
the last START (without one the address is free, log 8); at the load end the table read comes into force with OK, or the old
one stays with TABLE_INVALID or TABLE_ACCESS. -/
def Obligations.FilterLoadPutsATableInForce : Prop :=
  (∀ (s : State) (st : Settings) (region : Byte), s.control.inFlight = none →
    s.control.device = .idle ∨ s.control.device = .running ∨ s.control.device = .draining →
    s.control.settings = some st →
    checkAccess s.link.regions (readRequest .filterLoad (some 0) st.filterTable 496) = .ok region →
    exec .loadFilters s = .next { s with
      control := { s.control with ignored := false, inFlight := some .loadFilters, filterLoad := some .reading }
      link := { s.link with
        accesses := s.link.accesses ++
          [{ tag := s.link.nextTag, agent := .filterLoad, kind := .read, addr := st.filterTable, length := 496, key := some 0
             region := region, data := [] }]
        nextTag := s.link.nextTag + 1 } }) ∧
  (∀ (s : State) (st : Settings) (e : AccessResult × Byte), s.control.inFlight = none →
    s.control.device = .idle ∨ s.control.device = .running ∨ s.control.device = .draining →
    s.control.settings = some st →
    checkAccess s.link.regions (readRequest .filterLoad (some 0) st.filterTable 496) = .error e →
    exec .loadFilters s = .next { s with
      control := { s.control with ignored := false, inFlight := some .loadFilters, filterLoad := some .failed } }) ∧
  (∀ s : State, s.control.inFlight = none → s.control.device = .idle → s.control.settings = none → s.link.regions = none →
    ∃ addr : Long, exec .loadFilters s = .next { s with
      freeCount := s.freeCount + 1
      control := { s.control with ignored := false, inFlight := some .loadFilters, filterLoad := some .reading }
      link := { s.link with
        accesses := s.link.accesses ++
          [{ tag := s.link.nextTag, agent := .filterLoad, kind := .read, addr := addr, length := 496, key := some 0
             region := 0xFF, data := [] }]
        nextTag := s.link.nextTag + 1 } }) ∧
  (∀ (s : State) (data : List Byte) (table : FilterTable), s.control.filterLoad = some (.read data) →
    readFilterTable data = some table →
    exec .loadEnd s = .next { s with
      side := { s.side with table := some table }
      control := { s.control with
        filterLoad := none, inFlight := none, last := some .loadFilters, result := .ok, events := s.control.events ||| 1
        line := ((s.control.events ||| 1) &&& s.control.enable) != 0 } }) ∧
  (∀ (s : State) (data : List Byte), s.control.filterLoad = some (.read data) → readFilterTable data = none →
    exec .loadEnd s = .next { s with control := { s.control with
      filterLoad := none, inFlight := none, last := some .loadFilters, result := .tableInvalid
      events := s.control.events ||| 1, line := ((s.control.events ||| 1) &&& s.control.enable) != 0 } }) ∧
  ∀ s : State, s.control.filterLoad = some .failed →
    exec .loadEnd s = .next { s with control := { s.control with
      filterLoad := none, inFlight := none, last := some .loadFilters, result := .tableAccess
      events := s.control.events ||| 1, line := ((s.control.events ||| 1) &&& s.control.enable) != 0 } }

/-- R163: an accepted RELOAD_REGIONS begins the unchecked read of the 192 table bytes; at the reload end a table that passes
R162 comes into force as a whole with OK, and otherwise the old one stays with TABLE_INVALID or TABLE_ACCESS. -/
def Obligations.RegionReloadReplacesTheTable : Prop :=
  (∀ s : State, s.control.inFlight = none → s.control.device = .running ∨ s.control.device = .draining →
    exec .reloadRegions s = .next { s with
      control := { s.control with ignored := false, inFlight := some .reloadRegions, regionReload := some .reading }
      link := { s.link with
        accesses := s.link.accesses ++
          [{ tag := s.link.nextTag, agent := .regionReload, kind := .read, addr := s.settingsD.regionTable, length := 192
             key := none, region := 0xFF, data := [] }]
        nextTag := s.link.nextTag + 1 } }) ∧
  (∀ (s : State) (data : List Byte) (table : List Region), s.control.regionReload = some (.read data) →
    readRegions data = some table →
    exec .reloadEnd s = .next { s with
      link := { s.link with regions := some table }
      control := { s.control with
        regionReload := none, inFlight := none, last := some .reloadRegions, result := .ok, events := s.control.events ||| 1
        line := ((s.control.events ||| 1) &&& s.control.enable) != 0 } }) ∧
  (∀ (s : State) (data : List Byte), s.control.regionReload = some (.read data) → readRegions data = none →
    exec .reloadEnd s = .next { s with control := { s.control with
      regionReload := none, inFlight := none, last := some .reloadRegions, result := .tableInvalid
      events := s.control.events ||| 1, line := ((s.control.events ||| 1) &&& s.control.enable) != 0 } }) ∧
  ∀ s : State, s.control.regionReload = some .failed →
    exec .reloadEnd s = .next { s with control := { s.control with
      regionReload := none, inFlight := none, last := some .reloadRegions, result := .tableAccess
      events := s.control.events ||| 1, line := ((s.control.events ||| 1) &&& s.control.enable) != 0 } }

/-- R164: PROBE's two immediate ends, the read of its slot, the judgement of the range that the slot's bytes name against the
table in force, the write of result and region index behind the slot, and its completion with the result its accesses gave. -/
def Obligations.ProbeJudgesItsRange : Prop :=
  (∀ s : State, s.control.inFlight = none →
    s.control.device = .idle ∨ s.control.device = .running ∨ s.control.device = .draining →
    (s.link.regions = none →
      exec .probe s = .next { s with control := { s.control with
        ignored := false, last := some .probe, result := .noTable, events := s.control.events ||| 1
        line := ((s.control.events ||| 1) &&& s.control.enable) != 0 } }) ∧
    (s.link.regions ≠ none → s.control.device = .idle →
      s.control.directory = 0 ∨ s.control.directory.toNat % 8 ≠ 0 →
      exec .probe s = .next { s with control := { s.control with
        ignored := false, last := some .probe, result := .directoryAccess, events := s.control.events ||| 1
        line := ((s.control.events ||| 1) &&& s.control.enable) != 0 } }) ∧
    ∀ d, s.link.regions ≠ none →
      (s.control.device = .idle ∧ d = s.control.directory ∧ d ≠ 0 ∧ d.toNat % 8 = 0) ∨
        (s.control.device ≠ .idle ∧ d = s.settingsD.directory) →
      exec .probe s = .next { s with
        control := { s.control with ignored := false, inFlight := some .probe, probe := some (.reading d) }
        link := { s.link with
          accesses := s.link.accesses ++
            [{ tag := s.link.nextTag, agent := .probe, kind := .read, addr := d + 0x40, length := 17, key := none
               region := 0xFF, data := [] }]
          nextTag := s.link.nextTag + 1 } }) ∧
  (∀ (table : List Region) (addr : Long) (length : Nat) (key : Byte),
    (length = 0 ∨ (∀ r ∈ table, r.contains addr length = false) → judgeProbe table addr length key = (3, 0xFF)) ∧
    ∀ (i : Nat) (r : Region), length ≠ 0 → table[i]? = some r → r.contains addr length = true →
      (∀ j < i, ∀ q, table[j]? = some q → q.contains addr length = false) →
      (r.key ≠ 0 ∧ r.key ≠ key → judgeProbe table addr length key = (2, BitVec.ofNat 8 i)) ∧
      (r.key = 0 ∨ r.key = key →
        (r.rights = .none → judgeProbe table addr length key = (2, BitVec.ofNat 8 i)) ∧
        (r.rights = .read → judgeProbe table addr length key = (1, BitVec.ofNat 8 i)) ∧
        (r.rights = .readWrite → judgeProbe table addr length key = (0, BitVec.ofNat 8 i)))) ∧
  (∀ (s : State) (pre post : List Access) (a : Access) (data : List Byte) (d : Long) (table : List Region),
    s.link.accesses = pre ++ a :: post → (∀ x ∈ pre, x.tag ≠ a.tag) → (∀ x ∈ post, x.tag ≠ a.tag) → a.agent = .probe →
    (s.control.probe = some (.reading d) → s.link.regions = some table → a.kind = .read → a.length = 17 →
      data.length = 17 →
      let answer := judgeProbe table (BitVec.ofNat 64 (leNat data 0 8)) (leNat data 8 8) (byteAt data 16)
      exec (.accessCompletion a.tag data) s = .next { s with
        control := { s.control with probe := some .writing }
        link := { s.link with
          accesses := pre ++ post ++
            [{ tag := s.link.nextTag, agent := .probe, kind := .write, addr := d + 0x51, length := 2, key := none
               region := 0xFF, data := [answer.1, answer.2] }]
          nextTag := s.link.nextTag + 1 } }) ∧
    (s.control.probe = some .writing → a.kind = .write →
      exec (.accessCompletion a.tag data) s = .next { s with
        control := { s.control with probe := some (.ended .ok) }
        link := { s.link with accesses := pre ++ post } }) ∧
    (s.control.probe = some (.reading d) ∨ s.control.probe = some .writing →
      ∀ c, c = .busError a.tag ∨ c = .completionTimeout a.tag →
        exec c s = .next { s with
          control := { s.control with probe := some (.ended .directoryAccess) }
          link := { s.link with accesses := pre ++ post } })) ∧
  ∀ (s : State) (r : CmdResult), s.control.probe = some (.ended r) →
    exec .probeEnd s = .next { s with control := { s.control with
      probe := none, inFlight := none, last := some .probe, result := r, events := s.control.events ||| 1
      line := ((s.control.events ||| 1) &&& s.control.enable) != 0 } }

/-- R124 to R127, R178: an accepted TEST_PAGES makes its first page the current page, or writes its record at once for a count of
0. The current page leaves the free list or the retired set and is tested; its verdict puts it at the tail of the free list or
into the retired set, its places unwritten, counts it, and makes the next page current, or after the last page writes the
record. HALT lets the page under test finish, tests no further page, and between two pages writes the record at once. The end of
the record's write gives the test its result. In HALTING the end of a test that HALT stopped leaves its result to HALT's completion;
that a test with no page left completes by itself there is the model's deduction (log 22). R125 clears the places of a good page:
that those of a bad page are unwritten too, and that no contents are kept of a tested page, is the model's choice (log 10), and the
two ends of one page's test are the model's operands (log 38). -/
def Obligations.PageTestGivesEveryPageItsVerdict : Prop :=
  (∀ (first count : BitVec 12) (s : State), s.control.inFlight = none → s.control.device = .idle →
    (2047 < first.toNat →
      exec (.testPages first count) s = .next { s with control := { s.control with
        ignored := false, last := some .testPages, result := .badOperand, events := s.control.events ||| 1
        line := ((s.control.events ||| 1) &&& s.control.enable) != 0 } }) ∧
    (first.toNat ≤ 2047 →
      ∃ t x, exec (.testPages first count) s = .next t ∧ x.tested = 0 ∧ x.usable = 0 ∧ x.retired = 0 ∧
        x.next = first.toNat ∧ x.interrupted = false ∧ x.phase = .between ∧
        (count ≠ 0 → x.last = Nat.min (first.toNat + count.toNat - 1) 2047 ∧
          t = { s with
            control := { s.control with ignored := false, inFlight := some .testPages, device := .testing }
            store := { s.store with test := some x } }) ∧
        (count = 0 →
          ({ s with control := { s.control with
            ignored := false, inFlight := some .testPages, device := .testing } } : State).RecordsTest x t))) ∧
  (∀ (s : State) (x : PageTest), s.store.test = some x → x.phase = .between →
    (∃ origin, (origin = .retired ↔ x.next ∈ s.store.retired) ∧
      exec (.pageTested .begins) s = .next { s with store := { s.store with
        free := s.store.free.filter fun p => p ≠ x.next
        retired := s.store.retired.filter fun p => p ≠ x.next
        residue := s.store.residue.clearPages [x.next]
        test := some { x with phase := .pages x.next origin } } }) ∧
    (∀ t, exec (.pageTested .begins) s = .next t →
      ∀ good, exec (.pageTested (.ends good)) s = exec (.pageTested (.ends good)) t) ∧
    (s.control.device = .testing →
      ∃ t, exec .halt s = .next t ∧
        (s.control.directory ≠ 0 ∧ s.control.directory.toNat % 8 = 0 →
          t.store.test = some { x with interrupted := true, phase := .writing } ∧
          { tag := s.link.nextTag, agent := .pageTest, kind := .write, addr := s.control.directory + 0x54, length := 8
            key := none, region := 0xFF, data := testBytes x.tested x.usable x.retired x.next } ∈ t.link.accesses) ∧
        (s.control.directory = 0 ∨ s.control.directory.toNat % 8 ≠ 0 →
          t.store.test = some { x with interrupted := true, phase := .ended .directoryAccess }))) ∧
  (∀ (s : State) (x : PageTest) (page : Nat) (origin : PageOrigin), s.store.test = some x → x.phase = .pages page origin →
    (∀ (good : Bool),
      let y := { x with
        tested := x.tested + 1, usable := x.usable + (if good then 1 else 0)
        retired := x.retired + (if good then 0 else 1), next := page + 1 }
      let store := { s.store with
        cells := s.store.cells.clearPages [page]
        free := if good then s.store.free ++ [page] else s.store.free
        retired := if good then s.store.retired else insertPage page s.store.retired }
      (x.interrupted = false → page < x.last →
        exec (.pageTested (.ends good)) s =
          .next { s with store := { store with test := some { y with phase := .between } } }) ∧
      (x.interrupted = true ∨ x.last ≤ page →
        ∃ t, exec (.pageTested (.ends good)) s = .next t ∧ ({ s with store := store } : State).RecordsTest y t)) ∧
    (∀ p, p ∈ insertPage page s.store.retired ↔ p = page ∨ p ∈ s.store.retired) ∧
    (∀ place < 20, (s.store.cells.clearPages [page]).read (placeIndex page place) = none) ∧
    (s.control.device = .testing →
      ∃ t, exec .halt s = .next t ∧ t.store.test = some { x with interrupted := true })) ∧
  (∀ (s : State) (x : PageTest) (pre post : List Access) (a : Access) (data : List Byte), s.store.test = some x →
    x.phase = .writing → s.link.accesses = pre ++ a :: post → (∀ y ∈ pre, y.tag ≠ a.tag) →
    (∀ y ∈ post, y.tag ≠ a.tag) → a.agent = .pageTest →
    (a.kind = .write →
      exec (.accessCompletion a.tag data) s = .next { s with
        link := { s.link with accesses := pre ++ post }
        store := { s.store with
          test := some { x with phase := .ended (if x.interrupted then .interrupted else .ok) } } }) ∧
    ∀ c, c = .busError a.tag ∨ c = .completionTimeout a.tag →
      exec c s = .next { s with
        link := { s.link with accesses := pre ++ post }
        store := { s.store with test := some { x with phase := .ended .directoryAccess } } }) ∧
  ∀ (s : State) (x : PageTest) (r : CmdResult), s.store.test = some x → x.phase = .ended r →
    (s.control.device = .testing →
      exec .testEnd s = .next { s with
        store := { s.store with test := none }
        control := { s.control with
          device := .idle, inFlight := none, last := some .testPages, result := r, events := s.control.events ||| 1
          line := ((s.control.events ||| 1) &&& s.control.enable) != 0 } }) ∧
    (s.control.device = .halting → x.interrupted = true →
      exec .testEnd s = .next { s with
        store := { s.store with test := none }, control := { s.control with endedTest := some r } }) ∧
    (s.control.device = .halting → x.interrupted = false →
      exec .testEnd s = .next { s with
        store := { s.store with test := none }
        control := { s.control with
          last := some .testPages, result := r, events := s.control.events ||| 1
          line := ((s.control.events ||| 1) &&& s.control.enable) != 0 } })

/-- R179, with each block's rule for the resets: every block takes its values as one event. RESET keeps DIRECTORY and the
retired set, which takes the marked pages of the sending list and a page under test that came from it (R129), and alone
completes, with COMMAND_DONE. The contents of the window slots are not cleared (R31), nor, at RESET, those of the store's pages
(R128). Five parts of these values are the model's, since no rule gives them (log 9): the timer's period, the bytes of the
scratch buffers, the value last read, the last cell and the fixed fields of a program that no start has read. -/
def Obligations.ResetsGiveEveryBlockItsValues : Prop :=
  ∀ s : State,
    (∀ c, c = .powerOnReset ∨ c = .busFunctionReset →
      ∃ t, exec c s = .next t ∧ t.control = Control.reset ∧ t.store = Store.reset ∧ t.timer = Timer.reset ∧
        t.allocator = Allocator.reset ∧ t.recoder = Recoder.reset ∧ t.keys = Keys.reset ∧ t.side = Side.reset ∧
        t.line = Line.reset ∧ t.reporter = Reporter.reset ∧ t.link.regions = none ∧ t.link.accesses = [] ∧
        t.controller = { Controller.reset with programs := t.controller.programs } ∧
        ∀ p, t.ctx p = { ProgramCtx.reset with window := { head := 0, count := 0, slots := (s.ctx p).window.slots } }) ∧
    ∃ t, exec .reset s = .next t ∧
      t.control = { Control.reset with
        directory := s.control.directory, last := some .reset, result := .ok, events := 1 } ∧
      (∀ p, p ∈ t.store.retired ↔ p ∈ s.store.retired ∨ (p ∈ s.line.sendingPages ∧ p ∈ s.store.marks) ∨
        ∃ x, s.store.test = some x ∧ x.phase = .pages p .retired) ∧
      t.store = { Store.reset with
        free := (List.range 2048).filter fun p => !t.store.retired.contains p, retired := t.store.retired
        residue := s.store.contents } ∧
      t.timer = Timer.reset ∧ t.allocator = Allocator.reset ∧ t.recoder = Recoder.reset ∧ t.keys = Keys.reset ∧
      t.side = Side.reset ∧ t.line = Line.reset ∧ t.reporter = Reporter.reset ∧ t.link.regions = none ∧
      t.link.accesses = [] ∧ t.controller = { Controller.reset with programs := t.controller.programs } ∧
      ∀ p, t.ctx p = { ProgramCtx.reset with window := { head := 0, count := 0, slots := (s.ctx p).window.slots } }

/-! ### The memory link -/

/-- R160: the check of an access with a key, with and without a table in force; a refused access issues nothing, and an
admitted one is in flight with the region index found. -/
def Obligations.AccessCheckTakesTheFirstContainingRegion : Prop :=
  (∀ (table : List Region) (r : Request) (key : Byte), r.key = some key →
    ((∀ e ∈ table, ¬ (e.length ≠ 0 ∧ e.base.toNat ≤ r.addr.toNat ∧
        r.addr.toNat + r.length ≤ e.base.toNat + e.length.toNat)) →
      checkAccess (some table) r = .error (.noRegion, 0xFF)) ∧
    ∀ (i : Nat) (e : Region), table[i]? = some e →
      e.length ≠ 0 ∧ e.base.toNat ≤ r.addr.toNat ∧ r.addr.toNat + r.length ≤ e.base.toNat + e.length.toNat →
      (∀ j < i, ∀ q, table[j]? = some q → ¬ (q.length ≠ 0 ∧ q.base.toNat ≤ r.addr.toNat ∧
        r.addr.toNat + r.length ≤ q.base.toNat + q.length.toNat)) →
      (e.key ≠ 0 ∧ e.key ≠ key → checkAccess (some table) r = .error (.keyMismatch, BitVec.ofNat 8 i)) ∧
      (e.key = 0 ∨ e.key = key →
        (e.rights = .readWrite ∨ (e.rights = .read ∧ r.kind = .read) →
          checkAccess (some table) r = .ok (BitVec.ofNat 8 i)) ∧
        (¬ (e.rights = .readWrite ∨ (e.rights = .read ∧ r.kind = .read)) →
          checkAccess (some table) r = .error (.rights, BitVec.ofNat 8 i)))) ∧
  (∀ (r : Request), r.key = some 0 → checkAccess none r = .ok 0xFF) ∧
  (∀ (r : Request) (key : Byte), r.key = some key → key ≠ 0 → checkAccess none r = .error (.noRegion, 0xFF)) ∧
  ∀ (s : State) (r : Request),
    (∀ result region, checkAccess s.link.regions r = .error (result, region) →
      s.issue r = (s, some (.failed { result := result, region := region, kind := r.kind, addr := r.addr, length := r.length }))) ∧
    ∀ region, checkAccess s.link.regions r = .ok region →
      s.issue r =
        ({ s with link := { s.link with
            accesses := s.link.accesses ++
              [{ tag := s.link.nextTag, agent := r.agent, kind := r.kind, addr := r.addr, length := r.length, key := r.key
                 region := region, data := r.data }]
            nextTag := s.link.nextTag + 1 } }, none)

/-- R161: the access with the tag leaves those in flight and its end goes to the work that made it: the delivered bytes of a
read, or BUS with the region index of the check and the access's range. That bytes given for another length than the access's
are cut or padded with 0 is the model's choice (log 1). -/
def Obligations.AccessesEndAtTheirRequester : Prop :=
  ∀ (s : State) (pre post : List Access) (a : Access) (data : List Byte), s.link.accesses = pre ++ a :: post →
    (∀ x ∈ pre, x.tag ≠ a.tag) → (∀ x ∈ post, x.tag ≠ a.tag) →
    (a.kind = .read →
      exec (.accessCompletion a.tag data) s =
        .next (({ s with link := { s.link with accesses := pre ++ post } } : State).deliver a.agent
          (.done (exactly a.length data)))) ∧
    (a.kind = .write →
      exec (.accessCompletion a.tag data) s =
        .next (({ s with link := { s.link with accesses := pre ++ post } } : State).deliver a.agent (.done []))) ∧
    (∀ c, c = .busError a.tag ∨ c = .completionTimeout a.tag →
      exec c s =
        .next (({ s with link := { s.link with accesses := pre ++ post } } : State).deliver a.agent
          (.failed { result := .bus, region := a.region, kind := a.kind, addr := a.addr, length := a.length }))) ∧
    (a.agent = .filterLoad → a.kind = .read →
      exec (.accessCompletion a.tag data) s = .next { s with
        link := { s.link with accesses := pre ++ post }
        control := { s.control with filterLoad := some (.read (exactly a.length data)) } }) ∧
    (a.agent = .regionReload →
      exec (.busError a.tag) s = .next { s with
        link := { s.link with accesses := pre ++ post }, control := { s.control with regionReload := some .failed } } ∧
      exec (.completionTimeout a.tag) s = .next { s with
        link := { s.link with accesses := pre ++ post }, control := { s.control with regionReload := some .failed } })

/-! ### Windows, intake and allocation -/

/-- R17 to R22, R33 to R35, with R11, R15, R25, R29, R40, R131, R165 and the tables of 11.2: a take writes the slot
behind the last valid name and raises the count; a finish of A makes each following picture the one before it and lowers the count. The steps of a take at intake, each from the end
of the access before it: the state read, the record read with its checks, the slice table, the side table, the TAKEN write with the
slot and the link, the two writes of a picture finished at intake, and the faults of each, which hold the program and leave its next
record address. The fields of a record, a slice descriptor and a side entry stand where 11.2 lays them out, and so do the 24
bytes of an outcome write with the codes of outcome and disposition; q_mean is the length-weighted mean of the q_in, rounded up, and
lies in their range. After HALT, and where the program has become HELD meanwhile, a read that succeeded is followed by no further step,
and a step that failed by what its class asks. Four points are the model's: that such a take ends so, with a record already written
TAKEN left TAKEN and a finish already begun written to its end (log 40, and log 15 for HALT), that the interval of a finish at intake is
the timer's also in an intake that a boundary has overtaken, where R20 says k (log 18), and that the last outcome and the last
interval coded are set also where a write of the finish failed (log 33). -/
def Obligations.WindowTakesAndFinishes : Prop :=
  (∀ data : List Byte,
    let rf := readRecord data
    rf.kind = leNat data 0x01 1 ∧ rf.sliceCount = leNat data 0x02 1 ∧ rf.sideCount = leNat data 0x03 1 ∧
      rf.sequence.toNat = leNat data 0x04 4 ∧ rf.link.toNat = leNat data 0x08 8 ∧ rf.sourceSize = leNat data 0x10 4 ∧
      rf.sliceTable.toNat = leNat data 0x18 8 ∧ rf.sliceBase.toNat = leNat data 0x20 8 ∧
      rf.sideTable.toNat = leNat data 0x28 8 ∧
      ∀ n : Nat, (readSlices n data).length = n ∧ (readSides n data).length = n ∧
        (∀ i d, (readSlices n data)[i]? = some d →
          d.offset = leNat data (16 * i) 4 ∧ d.length = leNat data (16 * i + 4) 4 ∧ d.qIn = leNat data (16 * i + 8) 1) ∧
        ∀ i e, (readSides n data)[i]? = some e →
          e.address.toNat = leNat data (16 * i) 8 ∧ e.length = leNat data (16 * i + 8) 2 ∧
            e.target = leNat data (16 * i + 10) 1 ∧ e.group = leNat data (16 * i + 11) 1) ∧
  (kindOf 0 = .key ∧ kindOf 1 = .pred ∧ kindOf 2 = .bi) ∧
  (∀ slices : List SliceDesc,
    let total := (slices.map SliceDesc.length).sum
    0 < total →
      (∀ q, qMeanOf slices ≤ q ↔ (slices.map fun d => d.length * d.qIn).sum ≤ q * total) ∧
      ((∀ d ∈ slices, 1 ≤ d.qIn ∧ d.qIn ≤ 62) → 1 ≤ qMeanOf slices ∧ qMeanOf slices ≤ 62)) ∧
  (∀ (o : Outcome) (pass size cells meanQ : Nat) (interval : Word) (sides : List SlotSide),
    let bytes := outcomeBytes o pass size cells meanQ interval sides
    bytes.length = 24 ∧ leNat bytes 0 1 = outcomeCode o ∧ leNat bytes 1 1 = pass % 256 ∧ leNat bytes 2 1 = meanQ % 256 ∧
      leNat bytes 3 1 = 0 ∧ leNat bytes 4 4 = size % 4294967296 ∧ leNat bytes 8 2 = cells % 65536 ∧
      leNat bytes 10 2 = 0 ∧ leNat bytes 12 4 = interval.toNat ∧
      ∀ i < 8, leNat bytes (16 + i) 1 = (sides[i]?.map fun x => dispositionCode x.disposition).getD 0) ∧
  (∀ x ∈ [(Outcome.ok, 0), (.substituted, 1), (.discardedOverrun, 2), (.bufferHold, 3), (.late, 4), (.malformed, 5)
      , (.keyMissing, 6), (.storeFull, 7), (.faultTolerated, 8), (.abandoned, 9)], outcomeCode x.1 = x.2) ∧
  (∀ x ∈ [(Disposition.none, 0), (.carried, 1), (.carriedCue, 2), (.droppedAddress, 3), (.droppedFilter, 4)
      , (.droppedLoading, 5), (.droppedQueueFull, 6), (.droppedNoCapacity, 7)], dispositionCode x.1 = x.2) ∧
  (∀ (w : Window) (x : Slot), w.count < 4 →
    (w.push x).count = w.count + 1 ∧ (w.push x).head = w.head ∧ (w.push x).named w.count = x ∧
      (∀ i < w.count, (w.push x).named i = w.named i) ∧ (w.push x).valid = w.valid ++ [x]) ∧
  (∀ w : Window, 1 ≤ w.count → w.count ≤ 4 →
    w.pop.count = w.count - 1 ∧ w.pop.head = w.head + 1 ∧ (∀ i < w.count - 1, w.pop.named i = w.named (i + 1)) ∧
      w.valid = w.named 0 :: w.pop.valid) ∧
  (∀ (s : State) (p : Program) (info : FaultInfo) (byIntake : Bool),
    ((s.ctx p).state = .off → s.hold p byIntake info = s) ∧
    ((s.ctx p).state ≠ .off →
      (s.hold p byIntake info).ctx p = { s.ctx p with state := .held } ∧
      ((if byIntake then (s.hold p byIntake info).controller.intakeNotes.look p
        else (s.hold p byIntake info).controller.notes.look p).heldFault = true) ∧
      (s.reporter.faultQueue = [] →
        (s.hold p byIntake info).reporter.faultQueue =
          if (s.ctx p).state = .held then [] else
            [{ program := p, area := (s.ctx p).fixed.faultArea, key := (s.ctx p).fixed.accessKey
               interval := s.timer.number, info := info, count := (s.ctx p).window.count
               sequences := (s.ctx p).window.valid.map Slot.sequence }]))) ∧
  ∀ (s : State) (i : Intake), s.controller.intake = some i →
    let p := i.program
    let c := s.ctx p
    let key := c.fixed.accessKey
    let goes := i.halted = false ∧ c.state ≠ .held
    let put := fun (phase : IntakePhase) =>
      ({ s with controller := { s.controller with intake := some { i with phase := phase } } } : State)
    let writeFrom := fun (u : State) (phase : IntakePhase) (offset : Long) (data : List Byte) =>
      ({ u with controller := { u.controller with intake := some { i with phase := phase } } } : State).issue
        { agent := .intake, kind := .write, addr := c.nextRecord + offset, length := data.length, key := some key
          data := data }
    let write := writeFrom s
    let fault := fun (cause : FaultCause) (f : Failure) (sequence : Word) =>
      ({ cause := cause, result := some f.result, record := c.nextRecord, sequence := sequence, addr := f.addr
         length := f.length, kind := f.kind, region := f.region, pass := 0 } : FaultInfo)
    let slotOf := fun (rf : RecordFields) (slices : List SliceDesc) =>
      ({ takeNumber := c.takeNumber + 1, record := c.nextRecord, sequence := rf.sequence, kind := kindOf rf.kind
         sourceSize := rf.sourceSize, sliceBase := rf.sliceBase, slices := slices, qMean := qMeanOf slices
         complexity := rf.sourceSize * qMeanOf slices, sides := [], faulted := false } : Slot)
    (i.halted = false → c.state = .priming ∨ c.state = .running → i.takes < 2 → c.window.count < 4 →
      s.tryTake p = (put .stateRead).issue (readRequest .intake (some key) c.nextRecord 1)) ∧
    (i.halted = true ∨ ¬ ((c.state = .priming ∨ c.state = .running) ∧ i.takes < 2 ∧ c.window.count < 4) →
      s.tryTake p = s.nextProgram) ∧
    (∀ x, i.halted = true → s.controller.halt = some (.waitIntake x) →
      s.nextProgram =
        (State.haltAdvance x programs { s with controller := { s.controller with intake := none } }, none)) ∧
    (∀ data, ¬ goes →
      i.phase = .stateRead ∨ i.phase = .recordRead ∨ (∃ rf, i.phase = .sliceTable rf) ∨
        (∃ rf slices, i.phase = .sideTable rf slices) ∨ (∃ rf slices done e rest, i.phase = .headRead rf slices done e rest) →
      s.intakeStep (.done data) = s.nextProgram) ∧
    (i.phase = .stateRead →
      (∀ data, goes → byteAt data 0 = 1 →
        s.intakeStep (.done data) =
          ({ s with controller := { s.controller with
            intake := some { i with takes := i.takes + 1, phase := .recordRead } } } : State).issue
            (readRequest .intake (some key) c.nextRecord 96)) ∧
      (∀ data, goes → byteAt data 0 ≠ 1 → s.intakeStep (.done data) = s.nextProgram) ∧
      ∀ f, s.intakeStep (.failed f) = (s.hold p true (fault .recordRead f 0)).nextProgram) ∧
    (i.phase = .recordRead →
      (∀ data, goes → let rf := readRecord data
        (rf.link = 0 ∨ rf.link.toNat % 8 ≠ 0 →
          s.intakeStep (.done data) = write
            (.faulted
              { cause := .linkInvalid, result := none, record := c.nextRecord, sequence := rf.sequence, addr := rf.link
                length := 0, kind := .read, region := 0xFF, pass := 0 } none) 0 [4]) ∧
        (rf.link ≠ 0 → rf.link.toNat % 8 = 0 →
          (2 < rf.kind ∨ rf.sliceCount = 0 ∨ 72 < rf.sliceCount ∨ 8 < rf.sideCount ∨ rf.sourceSize = 0 ∨
              1048576 < rf.sourceSize →
            s.intakeStep (.done data) = write (.finishOutcome .malformed s.timer.number rf) 0x30
              (outcomeBytes .malformed 0 0 0 0 s.timer.number [])) ∧
          (rf.kind ≤ 2 → 1 ≤ rf.sliceCount → rf.sliceCount ≤ 72 → rf.sideCount ≤ 8 → 1 ≤ rf.sourceSize →
            rf.sourceSize ≤ 1048576 →
            s.intakeStep (.done data) = (put (.sliceTable rf)).issue
              (readRequest .intake (some key) rf.sliceTable (16 * rf.sliceCount))))) ∧
      ∀ f, s.intakeStep (.failed f) = write (.faulted (fault .recordRead f 0) none) 0 [4]) ∧
    (∀ rf, i.phase = .sliceTable rf →
      (∀ data, goes →
        let slices := readSlices rf.sliceCount data
        ((∃ d ∈ slices, d.qIn = 0 ∨ 62 < d.qIn ∨ d.length < 5) →
          s.intakeStep (.done data) = write (.finishOutcome .malformed s.timer.number rf) 0x30
            (outcomeBytes .malformed 0 0 0 0 s.timer.number [])) ∧
        ((∀ d ∈ slices, 1 ≤ d.qIn ∧ d.qIn ≤ 62 ∧ 5 ≤ d.length) →
          (rf.sideCount = 0 → s.intakeStep (.done data) = write (.taken (slotOf rf slices) rf.link) 0 [2]) ∧
          (1 ≤ rf.sideCount →
            s.intakeStep (.done data) = (put (.sideTable rf slices)).issue
              (readRequest .intake (some key) rf.sideTable (16 * rf.sideCount))))) ∧
      ∀ f,
        (c.fixed.tolerant = true →
          s.intakeStep (.failed f) = write (.finishOutcome .faultTolerated s.timer.number rf) 0x30
            (outcomeBytes .faultTolerated 0 0 0 0 s.timer.number [])) ∧
        (c.fixed.tolerant = false →
          s.intakeStep (.failed f) = write (.faulted (fault .sliceTable f rf.sequence) none) 0 [4])) ∧
    (∀ rf slices, i.phase = .sideTable rf slices →
      (∀ data, goes →
        s.intakeStep (.done data) = State.classify p rf slices [] (readSides rf.sideCount data) s) ∧
      ∀ f,
        let noted := s.intakeNote p fun n => { n with sideFault := true }
        (goes → s.intakeStep (.failed f) = writeFrom noted (.taken (slotOf rf slices) rf.link) 0 [2]) ∧
        (¬ goes → s.intakeStep (.failed f) = noted.nextProgram)) ∧
    (∀ slot link, i.phase = .taken slot link →
      (∀ data,
        (c.state ≠ .held → s.intakeStep (.done data) =
          (s.modCtx p fun c => { c with
            window := c.window.push slot, takeNumber := c.takeNumber + 1, nextRecord := link }).tryTake p) ∧
        (c.state = .held → s.intakeStep (.done data) = s.nextProgram)) ∧
      ∀ f, s.intakeStep (.failed f) = write (.faulted (fault .recordWrite f slot.sequence) none) 0 [4]) ∧
    (∀ o n rf, i.phase = .finishOutcome o n rf →
      (∀ data, s.intakeStep (.done data) = write (.finishState o n rf) 0 [3]) ∧
      ∀ f, s.intakeStep (.failed f) = write (.faulted (fault .recordWrite f rf.sequence) (some (o, n))) 0 [4]) ∧
    (∀ o n rf, i.phase = .finishState o n rf →
      (∀ data,
        (c.state ≠ .held → s.intakeStep (.done data) =
          (s.modCtx p fun c => { c with lastOutcome := some o, lastInterval := n, nextRecord := rf.link }).tryTake p) ∧
        (c.state = .held → s.intakeStep (.done data) =
          (s.modCtx p fun c => { c with lastOutcome := some o, lastInterval := n }).nextProgram)) ∧
      ∀ f, s.intakeStep (.failed f) = write (.faulted (fault .recordWrite f rf.sequence) (some (o, n))) 0 [4]) ∧
    ∀ info, ∀ reply : Reply,
      (i.phase = .faulted info none → s.intakeStep reply = (s.hold p true info).nextProgram) ∧
      ∀ o n, i.phase = .faulted info (some (o, n)) →
        s.intakeStep reply =
          ((s.modCtx p fun c => { c with lastOutcome := some o, lastInterval := n }).hold p true info).nextProgram

/-- R1 to R5, R8, R13, R14, R24, R44 and the program entry of 11.2: what an intake does and how it ends. The live part of each program is read in order, its
values clamped and handed over; the state and the desired mode give the transition; a start reads and checks the fixed part and
initialises the program, and the first of its checks that fails gives the start-refused code; a parity pair with a target that differs
from the pair kept is handed to the key unit and kept; an abandonment writes ABANDONED and DONE to every picture not FAULTED and leaves an empty window of an
OFF program. Once all 16 programs are done and every report has been handled, the end of the intake begins the allocation of its
interval. An intake that a boundary has overtaken starts none: the intake of the interval the latest boundary began follows it.
Three points are the model's deductions: that reports are handled first (log 17), that an abandonment waits for a finish being
written (log 16), and that a fixed part read before a STOP starts no program after it (log 41). -/
def Obligations.IntakeCompletionBeginsTheAllocation : Prop :=
  (∀ (cpi : Nat) (data : List Byte),
    let l := readLive cpi data
    let max := Nat.min cpi (Nat.max 1 (leNat data 6 2))
    l.mode = (if leNat data 0 1 = 1 then .run else if leNat data 0 1 = 2 then .abort else .off) ∧
      l.weight = Nat.min 16 (Nat.max 1 (leNat data 1 1)) ∧ l.max = max ∧
      l.min = Nat.min max (Nat.max 1 (leNat data 4 2)) ∧
      l.target = (if leNat data 3 1 = 1 then some .even else if leNat data 3 1 = 2 then some .odd else none) ∧
      l.cueClear = decide (leNat data 2 1 ≠ 0) ∧ l.interval = BitVec.ofNat 32 (leNat data 8 4) ∧
      (liveClamped cpi data = false ↔
        leNat data 0 1 ≤ 2 ∧ leNat data 2 1 ≤ 1 ∧ leNat data 3 1 ≤ 2 ∧ l.weight = leNat data 1 1 ∧
          l.min = leNat data 4 2 ∧ l.max = leNat data 6 2)) ∧
  (∀ data : List Byte,
    let f := readFixed data
    f.chainStart.toNat = leNat data 0x00 8 ∧ f.faultArea.toNat = leNat data 0x08 8 ∧ f.bufferSize = leNat data 0x10 4 ∧
      f.accessKey.toNat = leNat data 0x14 1 ∧ f.depth = leNat data 0x15 1 ∧ f.delay = leNat data 0x16 1 ∧
      f.scrambled = decide (leNat data 0x17 1 = 1) ∧ f.tolerant = decide (leNat data 0x18 1 = 1)) ∧
  (∀ data : List Byte,
    let field := fun offset length => leNat data offset length
    let checks : List (Prop × StartRefusal) :=
      [(field 0x14 1 ≤ 15, .accessKey), (field 0x00 8 ≠ 0 ∧ field 0x00 8 % 8 = 0, .chainAddress)
       , (1 ≤ field 0x15 1 ∧ field 0x15 1 ≤ 4, .depth), (65536 ≤ field 0x10 4 ∧ field 0x10 4 ≤ 8388608, .bufferSize)
       , (1 ≤ field 0x16 1 ∧ field 0x16 1 ≤ 8, .decodeDelay), (field 0x17 1 ≤ 1, .scrambleMode)
       , (field 0x18 1 ≤ 1, .faultMode), (field 0x08 8 ≠ 0 ∧ field 0x08 8 % 8 = 0, .faultArea)]
    ∀ before holds code after, checks = before ++ (holds, code) :: after → (∀ x ∈ before, x.1) → ¬ holds →
      fixedRefusal data = code) ∧
  (∀ (s : State) (p : Program),
    let c := s.ctx p
    (∀ l target, c.live = some l → l.target = some target → c.fixed.scrambled = true → c.state ≠ .off →
      (some target, l.interval) ≠ c.lastPair →
        s.handPair p = { s with
          controller := { s.controller with
            programs := s.controller.programs.modify p fun c => { c with lastPair := (some target, l.interval) } }
          keys := { s.keys with records := s.keys.records.modify p fun x => x.handed target l.interval } }) ∧
    (c.live = none ∨ (∃ l, c.live = some l ∧ (l.target = none ∨ (l.target, l.interval) = c.lastPair)) ∨
        c.fixed.scrambled = false ∨ c.state = .off →
      s.handPair p = s) ∧
    s.afterMode p = (s.handPair p).tryTake p) ∧
  (∀ data : List Byte,
    let f := readFixed data
    fixedRefusal data = .none ↔
      f.accessKey.toNat ≤ 15 ∧ f.chainStart ≠ 0 ∧ f.chainStart.toNat % 8 = 0 ∧ 1 ≤ f.depth ∧ f.depth ≤ 4 ∧
        65536 ≤ f.bufferSize ∧ f.bufferSize ≤ 8388608 ∧ 1 ≤ f.delay ∧ f.delay ≤ 8 ∧ leNat data 0x17 1 ≤ 1 ∧
        leNat data 0x18 1 ≤ 1 ∧ f.faultArea ≠ 0 ∧ f.faultArea.toNat % 8 = 0) ∧
  (∀ (s : State) (p : Program) (f : Fixed),
    let t := s.startProgram p f
    let record : ParityRecord :=
      { scrambled := f.scrambled, inForce := false, active := if f.scrambled then some .even else none, pending := none
        switchHeld := false }
    t.ctx p = { s.ctx p with
        state := .priming, fixed := f, nextRecord := f.chainStart
        window := { head := 0, count := 0, slots := (s.ctx p).window.slots }, lastPair := (none, 0), lastOutcome := none
        lastInterval := 0, refused := .none } ∧
      t.allocator = { s.allocator with delivered := s.allocator.delivered.put p [] } ∧
      t.recoder = { s.recoder with counters := s.recoder.counters.put p 0 } ∧
      t.keys = { s.keys with records := s.keys.records.put p record } ∧
      t.side = { s.side with counters := s.side.counters.put p 0, latch := s.side.latch.put p false } ∧
      (∀ q, q ≠ p → t.ctx q = s.ctx q) ∧
      t = { s with
        controller := { s.controller with programs := t.controller.programs }
        allocator := t.allocator, recoder := t.recoder, keys := t.keys, side := t.side }) ∧
  (∀ (s : State) (i : Intake), s.controller.intake = some i → i.halted = false →
    let p := i.program
    let c := s.ctx p
    let put := fun (phase : IntakePhase) =>
      ({ s with controller := { s.controller with intake := some { i with phase := phase } } } : State)
    let ended := fun (t : Cont) => (t.1.ctx p).state = .off ∧ (t.1.ctx p).window.count = 0 ∧
      (t.1.ctx p).nextRecord = c.nextRecord ∧ (t.1.ctx p).lastOutcome = c.lastOutcome
    let abandons := fun (k : Nat) =>
      (put (.abandonOutcome k)).issue
        { agent := .intake, kind := .write, addr := (c.window.named k).record + 0x30, length := 24
          key := some c.fixed.accessKey
          data := outcomeBytes .abandoned 0 0 0 0 s.timer.number (c.window.named k).sides }
    (p ≠ 15 →
      s.nextProgram =
        ({ s with controller := { s.controller with
          intake := some { i with program := p + 1, takes := 0, phase := .live } } } : State).issue
          (readRequest .intake (some 0) (s.settingsD.programTable + BitVec.ofNat 64 (128 * (p + 1).val)) 16)) ∧
    (p = 15 → s.nextProgram = (put .allDone, none)) ∧
    (∀ reply, (s.intakeStep reply).2 = none → s.intakeReply reply = (s.intakeStep reply).1) ∧
    (i.phase = .live →
      (∀ data,
        let t := s.modCtx p fun c => { c with live := some (readLive s.settingsD.cpi data) }
        let u := if liveClamped s.settingsD.cpi data then t.intakeNote p fun n => { n with configClamped := true } else t
        s.intakeStep (.done data) =
          ({ u with side := u.side.handLevel p (readLive s.settingsD.cpi data).cueClear } : State).transition p) ∧
      ∀ f,
        let t := s.intakeNote p fun n => { n with entryUnreadable := true }
        (c.live = none → s.intakeStep (.failed f) = t.transition p) ∧
        ∀ l, c.live = some l →
          s.intakeStep (.failed f) = ({ t with side := t.side.handLevel p l.cueClear } : State).transition p) ∧
    (i.phase = .fixed →
      (s.control.device = .draining → ∀ reply, s.intakeStep reply = s.nextProgram) ∧
      (s.control.device ≠ .draining →
        (∀ data, fixedRefusal data = .none →
          s.intakeStep (.done data) = (s.startProgram p (readFixed data)).afterMode p) ∧
        (∀ data, fixedRefusal data ≠ .none →
          s.intakeStep (.done data) = (s.modCtx p fun c => { c with refused := fixedRefusal data }).nextProgram) ∧
        ∀ f,
          s.intakeStep (.failed f) =
            ((s.modCtx p fun c => { c with refused := .entryUnreadable }).intakeNote p fun n =>
              { n with entryUnreadable := true }).nextProgram)) ∧
    (∀ l, c.live = some l →
      let mode := if s.control.device = .draining ∧ l.mode = .run then DesiredMode.off else l.mode
      (c.state = .off → mode = .run →
        s.transition p = (put .fixed).issue
          (readRequest .intake (some 0) (s.settingsD.programTable + BitVec.ofNat 64 (128 * p.val + 0x10)) 48)) ∧
      (c.state = .off → mode ≠ .run → s.transition p = s.nextProgram) ∧
      (c.state ≠ .off → mode = .run →
        ((s.transition p).1.ctx p).state = (if c.state = .draining then .running else c.state) ∧
          ((s.transition p).1.ctx p).window = c.window ∧ ((s.transition p).1.ctx p).nextRecord = c.nextRecord ∧
          (c.state ≠ .draining → s.transition p = s.afterMode p) ∧
          (c.state = .draining →
            s.transition p = (s.modCtx p fun c => { c with state := .running }).afterMode p)) ∧
      (c.state = .running ∨ c.state = .draining → mode = .off → 0 < c.window.count →
        s.transition p = (s.modCtx p fun c => { c with state := .draining }).afterMode p) ∧
      (c.state = .running ∨ c.state = .draining → mode = .off →
        ((s.transition p).1.ctx p).state = (if c.window.count = 0 then .off else .draining) ∧
          ((s.transition p).1.ctx p).window = c.window ∧ ((s.transition p).1.ctx p).nextRecord = c.nextRecord) ∧
      (c.state ≠ .off → mode = .abort ∨ (mode = .off ∧ (c.state = .priming ∨ c.state = .held)) →
        (c.finish ≠ none → s.transition p = (put .waitFinish, none)) ∧
        (c.finish = none →
          (c.window.count = 0 → ended (s.transition p)) ∧
          ∀ region, 0 < c.window.count → (c.window.named 0).faulted = false →
            checkAccess s.link.regions
              { agent := .intake, kind := .write, addr := (c.window.named 0).record + 0x30, length := 24
                key := some c.fixed.accessKey, data := [] } = .ok region →
            s.transition p = abandons 0))) ∧
    (∀ k reply, i.phase = .abandonState k ∨ (i.phase = .abandonOutcome k ∧ ∃ f, reply = .failed f) →
      (c.window.count ≤ k + 1 → ended (s.intakeStep reply)) ∧
      ∀ region data, reply = .done data → k + 1 < c.window.count → (c.window.named (k + 1)).faulted = false →
        checkAccess s.link.regions
          { agent := .intake, kind := .write, addr := (c.window.named (k + 1)).record + 0x30, length := 24
            key := some c.fixed.accessKey, data := [] } = .ok region →
        s.intakeStep reply = abandons (k + 1)) ∧
    ∀ k region data, i.phase = .abandonOutcome k →
      checkAccess s.link.regions
        { agent := .intake, kind := .write, addr := (c.window.named k).record, length := 1
          key := some c.fixed.accessKey, data := [3] } = .ok region →
      s.intakeStep (.done data) = (put (.abandonState k)).issue
        { agent := .intake, kind := .write, addr := (c.window.named k).record, length := 1
          key := some c.fixed.accessKey, data := [3] }) ∧
  ∀ (s : State) (i : Intake), s.timer.running = true → s.controller.intake = some i → i.phase = .allDone →
    s.controller.reports = [] → (∀ p, (s.ctx p).finish = none) →
    (i.interval = s.timer.number →
      ∃ t a, exec .intakeComplete s = .next t ∧ t.allocator = { s.allocator with inFlight := some a } ∧
        a.interval = s.timer.number ∧ a.grants.map Grant.program = s.codingPrograms ∧ a.holds = s.holdGroup ∧
        a.primed = s.primedPrograms ∧ a.reserve = s.reservationFor s.codingPrograms ∧
        a.pool = s.settingsD.cpi - a.reserve - s.totalDebt - a.holds.length ∧
        t = { s with
          allocator := t.allocator
          controller := { s.controller with
            intake := none, notes := t.controller.notes, intakeNotes := PerProgram.fill Notes.clear } } ∧
        ∀ p, t.controller.notes.look p = (s.controller.notes.look p).join (s.controller.intakeNotes.look p)) ∧
    (i.interval ≠ s.timer.number → s.control.drainEnding = false → s.control.device ≠ .idle →
      ∃ t j, exec .intakeComplete s = .next t ∧ t.controller.intake = some j ∧ j.interval = s.timer.number ∧
        t.allocator.inFlight = s.allocator.inFlight)

/-- R45, R9 and R48 to R56: the arithmetic of an allocation. The groups, each coding program's demand, bounds and room; the minima,
scaled where they sum to more than the pool; the water-fill passes, at most four, each of which gives an unpinned program its
proportion of the remainder and pins it at its headroom where that is more; the hand-out of the leftover from the rotation pointer
upward and round; the budgets and the seed that follow, and the allocation that an INTAKE_COMPLETE puts in flight. Where the pool has
a cell for each coding program and every minimum is at least 1, each budget lies between 1 and the program's upper bound, the budgets
and the spare pool seed make up the pool exactly, and a seed is left only where every program has reached its bound. -/
def Obligations.BudgetsAndSeedMakeUpThePool : Prop :=
  (∀ (interval : Word) (cpi reserve debts : Nat) (rotation : Fin 16) (coders : List Coder) (holds : List Hold)
    (primed : List Program),
    let a := allocationOf interval cpi reserve debts rotation coders holds primed
    let initial := (initialShares a.pool coders).1
    let remainder := a.pool - (initial.map Share.lo).sum
    let filled := waterFill remainder 4 initial
    let leftover := remainder - (filled.map Share.extra).sum
    let final := handOut (visitOrder rotation) leftover filled leftover
    a.interval = interval ∧ a.pool = cpi - reserve - debts - holds.length ∧ a.reserve = reserve ∧ a.holds = holds ∧
      a.primed = primed ∧ a.scaled = (initialShares a.pool coders).2 ∧ a.seed = final.2 ∧
      a.grants = final.1.map (fun x =>
        { program := x.coder.program, slot := x.coder.slot, takeNumber := x.coder.takeNumber, sequence := x.coder.sequence
          budget := x.lo + x.extra, room := x.coder.room, tight := x.coder.tight, pinned := x.pinned }) ∧
      (coders.length ≤ a.pool → (∀ c ∈ coders, 1 ≤ c.min) →
        a.grants.map Grant.program = coders.map Coder.program ∧
        (∀ x ∈ a.grants.zip coders,
          1 ≤ x.1.budget ∧ x.1.budget ≤ Nat.max 1 (Nat.min x.2.max (x.2.room / 192)) ∧ x.1.room = x.2.room) ∧
        (a.grants.map Grant.budget).sum + a.seed = a.pool ∧
        (0 < a.seed → (coders.map Coder.program).Nodup →
          ∀ x ∈ a.grants.zip coders, x.1.budget = Nat.max 1 (Nat.min x.2.max (x.2.room / 192))))) ∧
  (∀ c : Coder, c.hi = Nat.max 1 (Nat.min c.max (c.room / 192)) ∧ c.lo = Nat.min c.min c.hi ∧
    (c.tight = true ↔ Nat.min c.max (c.room / 192) = 0 ∨ c.hi < c.min)) ∧
  (∀ (bufferSize delay : Nat) (delivered : List Nat),
    roomOf bufferSize delay delivered =
      bufferSize - ((delivered.drop (delivered.length - (delay - 1))).sum + 8 * (delay - 1 - delivered.length))) ∧
  (∀ (pool : Nat) (coders : List Coder),
    let total := (coders.map Coder.lo).sum
    let shares := (initialShares pool coders).1
    ((initialShares pool coders).2 = true ↔ pool < total) ∧ shares.map Share.coder = coders ∧
      ∀ x ∈ shares, x.extra = 0 ∧ x.pinned = false ∧ x.headroom = x.coder.hi - x.lo ∧
        (total ≤ pool → x.lo = x.coder.lo) ∧
        (pool < total → x.lo = 1 + (x.coder.lo - 1) * (pool - coders.length) / (total - coders.length))) ∧
  (∀ (remainder : Nat) (shares : List Share),
    let left := remainder - ((shares.filter Share.pinned).map Share.headroom).sum
    let demands := ((shares.filter fun x => !x.pinned).map fun x => x.coder.demand).sum
    (pourAll remainder shares).length = shares.length ∧
      ∀ (i : Nat) (x : Share), shares[i]? = some x → ∃ y, (pourAll remainder shares)[i]? = some y ∧
        let offer := left * x.coder.demand / demands
        (x.pinned = true → y = x) ∧
        (x.pinned = false → offer ≤ x.headroom → y = { x with extra := offer }) ∧
        (x.pinned = false → x.headroom < offer → y = { x with extra := x.headroom, pinned := true })) ∧
  (∀ (remainder : Nat) (shares : List Share),
    let after := fun n => (pourAll remainder)^[n] shares
    let pins := fun n => ((after n).filter Share.pinned).length
    ∃ n, 1 ≤ n ∧ n ≤ 4 ∧ waterFill remainder 4 shares = after n ∧ (∀ m < n - 1, pins (m + 1) ≠ pins m) ∧
      (n < 4 → pins n = pins (n - 1))) ∧
  (∀ rotation : Fin 16, visitOrder rotation = (List.range 16).map fun i => rotation + Fin.ofNat 16 i) ∧
  (∀ (p : Program) (shares : List Share) (left : Nat), (shares.map fun x => x.coder.program).Nodup →
    (∀ x ∈ shares, x.coder.program = p → x.extra < x.headroom → 0 < left →
      giveCell p shares left =
        (shares.map (fun y => if y.coder.program = p then { y with extra := y.extra + 1 } else y), left - 1)) ∧
    ((∀ x ∈ shares, x.coder.program = p → x.headroom ≤ x.extra) ∨ left = 0 → giveCell p shares left = (shares, left))) ∧
  (∀ (order : List Program) (shares : List Share) (left : Nat),
    let rounds := fun n => (fun a : List Share × Nat => order.foldl (fun b p => giveCell p b.1 b.2) a)^[n] (shares, left)
    ∃ n, handOut order left shares left = rounds n ∧ rounds (n + 1) = rounds n ∧
      ∀ m < n, (rounds (m + 1)).2 < (rounds m).2) ∧
  (∀ s : State,
    s.codingPrograms.Pairwise (· < ·) ∧ (s.holdGroup.map Hold.program).Pairwise (· < ·) ∧
      s.primedPrograms.Pairwise (· < ·) ∧
    ∀ p,
      let c := s.ctx p
      (p ∈ s.codingPrograms ↔
        ((c.state = .priming ∨ c.state = .running) ∧ c.fixed.depth ≤ c.window.count) ∨
          (c.state = .draining ∧ 1 ≤ c.window.count)) ∧
      ({ program := p, starved := true } ∈ s.holdGroup ↔ c.state = .running ∧ c.window.count < c.fixed.depth) ∧
      ({ program := p, starved := false } ∈ s.holdGroup ↔ c.state = .held) ∧
      (p ∈ s.primedPrograms ↔ c.state = .priming ∧ c.fixed.depth ≤ c.window.count) ∧
      ∀ l, c.live = some l →
        let picture := c.window.named 0
        let factor :=
          match picture.kind with
          | .key => s.settingsD.kfKey
          | .pred => s.settingsD.kfPred
          | .bi => s.settingsD.kfBi
        s.coder p =
          { program := p, slot := c.window.head, takeNumber := picture.takeNumber, sequence := picture.sequence
            demand := l.weight * factor * effectiveComplexity (c.window.valid.map Slot.complexity), min := l.min
            max := l.max, room := roomOf c.fixed.bufferSize c.fixed.delay (s.allocator.delivered.look p) }) ∧
  ∀ (s : State) (i : Intake), s.timer.running = true → s.controller.intake = some i → i.phase = .allDone →
    i.interval = s.timer.number → s.controller.reports = [] → (∀ p, (s.ctx p).finish = none) →
    ∃ t, exec .intakeComplete s = .next t ∧
      t.allocator = { s.allocator with
        inFlight := some (allocationOf s.timer.number s.settingsD.cpi (s.reservationFor s.codingPrograms)
          (programs.map fun p => s.allocator.debt.look p).sum s.allocator.rotation (s.codingPrograms.map s.coder) s.holdGroup
          s.primedPrograms) }

/-- R47: with settings in range and debts of at most 8 cells the pool is CPI − S − Σ debt − H with nothing cut off, at least 48
and at least the number of coding programs; the debts counted are cleared at completion. -/
def Obligations.PoolCoversTheCodingPrograms : Prop :=
  (∀ s : State, 256 ≤ s.settingsD.cpi → s.settingsD.cpi ≤ 8192 →
    s.settingsD.sMax = 0 ∨ (6 ≤ s.settingsD.sMax ∧ s.settingsD.sMax ≤ s.settingsD.cpi / 4) →
    (∀ p, s.allocator.debt.look p ≤ 8) →
    (s.allocate.pool : Int) =
        s.settingsD.cpi - s.allocate.reserve - (programs.map fun p => s.allocator.debt.look p).sum - s.holdGroup.length ∧
      s.allocate.reserve ≤ s.settingsD.cpi / 4 ∧ (programs.map fun p => s.allocator.debt.look p).sum ≤ 128 ∧
      s.holdGroup.length ≤ 16 ∧ 48 ≤ s.allocate.pool ∧ s.codingPrograms.length ≤ 16 ∧
      s.codingPrograms.length ≤ s.allocate.pool) ∧
  ∀ (a : Allocator) (r : Allocation) (p : Program), (a.completed r).debt.look p = 0

/-- R56, with R6, R9, R55, R64, R69, R89, R105, R139 and R140: what an allocation completion puts into effect. Every debt is cleared,
the rotation advances, primed programs run, each program of a grant or a hold gets its produced entry with its next continuity
count, and each SCRAMBLED program that is not OFF its parity decision. The jobs stand in the queue in descending order of budget;
the spare pool holds the seed; the carried messages of the coding programs' pictures A join the side queue as far as it has room;
messages from its head up to S_max cells are reserved; and the status writes begin. A round of them writes the 64 bytes that 11.2
lays out for each program in turn, with the values of the moment: the end of one write begins the next, and a write that is refused or
fails is noted. Then the engines take their jobs and the side
path its build, or a boundary that falls together with the event finds the jobs before any engine has one (log 39). Two points are
the model's deductions: that RE0 is the engine that takes the head of the queue, which R71 leaves open (log 32), and that a new
round of status parts follows one still being written, of which R6 says nothing (log 27). -/
def Obligations.AllocationCompletionIsTakenUp : Prop :=
  (∀ (s : State) (a : Allocation), s.allocator.inFlight = some a →
    ((a.grants.map Grant.program) ++ (a.holds.map Hold.program)).Nodup →
    ∃ t, exec .allocationComplete s = .next t ∧
      t.allocator.debt = PerProgram.fill 0 ∧ t.allocator.rotation = s.allocator.rotation + 1 ∧
      t.allocator.inFlight = none ∧ t.allocator.current = some a ∧ t.allocator.reported = [] ∧
      t.allocator.delivered = s.allocator.delivered ∧ t.timer = s.timer ∧ t.controller.statusSeen = true ∧
      (∀ p, (t.ctx p).state = if p ∈ a.primed then .running else (s.ctx p).state) ∧
      (∀ g ∈ a.grants, t.recoder.counters.look g.program = s.recoder.counters.look g.program + 1 ∧
        (t.line.building.look g.program).picture = (s.line.building.look g.program).picture ++
          [.produced g.program (s.recoder.counters.look g.program) (g.sequence.setWidth 16)]) ∧
      (∀ h ∈ a.holds, t.recoder.counters.look h.program = s.recoder.counters.look h.program + 1 ∧
        (t.line.building.look h.program).picture = (s.line.building.look h.program).picture ++
          [.produced h.program (s.recoder.counters.look h.program) 0]) ∧
      (∀ p, p ∉ a.grants.map Grant.program → p ∉ a.holds.map Hold.program →
        t.recoder.counters.look p = s.recoder.counters.look p ∧
          (t.line.building.look p).picture = (s.line.building.look p).picture) ∧
      ∀ p, t.keys.slots = s.keys.slots ∧
        t.keys.records.look p =
          if (s.keys.records.look p).scrambled = true ∧ (p ∈ a.primed ∨ (s.ctx p).state ≠ .off) then
            (s.keys.records.look p).decision (s.keys.slots.look p) (a.interval + 1)
          else s.keys.records.look p) ∧
  (∀ (s : State) (a : Allocation), s.allocator.inFlight = some a →
    ((a.grants.map Grant.program) ++ (a.holds.map Hold.program)).Nodup →
    let jobs := a.grants.map fun g =>
      ({ program := g.program, interval := a.interval, slot := g.slot, takeNumber := g.takeNumber, budget := g.budget
         room := g.room, count := s.recoder.counters.look g.program, pass := 0, draw := 0, debt := 0, pages := [] } : Job)
    let joined := s.joinFrom (a.grants.map Grant.program) s.side.queue
    ∃ t, exec .allocationComplete s = .next (((t.engineTakes .re0).engineTakes .re1).nextSideBuild) ∧
      (s.timer.running = true → ∀ lineFirst,
        exec (.boundary { lineFirst := lineFirst, allocationFirst := true }) s =
          exec (.boundary { lineFirst := lineFirst, allocationFirst := false }) t) ∧
      t.timer = s.timer ∧
      t.recoder = { s.recoder with
        queue := t.recoder.queue, counters := t.recoder.counters, spare := a.seed } ∧
      t.recoder.queue.Perm (s.recoder.queue ++ jobs) ∧
      (s.recoder.queue = [] → t.recoder.queue.Pairwise fun j k =>
        k.budget < j.budget ∨ (k.budget = j.budget ∧ j.program < k.program)) ∧
      t.side = { s.side with queue := t.side.queue, reserved := t.side.reserved } ∧
      (∀ r ∈ t.side.reserved, r.state = .waiting) ∧
      t.side.reserved.map Reserved.message ++ t.side.queue = joined.2 ∧
      (t.side.reserved.map fun r => (r.message.length + 191) / 192).sum ≤ s.settingsD.sMax ∧
      (∀ m, t.side.queue.head? = some m →
        s.settingsD.sMax < (t.side.reserved.map fun r => (r.message.length + 191) / 192).sum + (m.length + 191) / 192) ∧
      joined.1.map Prod.fst = a.grants.map Grant.program ∧
      (∀ x ∈ joined.1, (t.ctx x.1).window = { (s.ctx x.1).window with
        slots := (s.ctx x.1).window.slots.set (s.ctx x.1).window.head.val
          { (s.ctx x.1).window.named 0 with sides := x.2 } (s.ctx x.1).window.head.isLt }) ∧
      (s.controller.statusTodo ≠ [] →
        t.controller.statusTodo = s.controller.statusTodo ++ programs ∧ t.link = s.link) ∧
      (∀ region, s.controller.statusTodo = [] →
        checkAccess s.link.regions
          { agent := .status, kind := .write, addr := s.settingsD.programTable + 0x40, length := 64, key := some 0
            data := [] } = .ok region →
        t.controller.statusTodo = programs ∧
        t.link = { s.link with
          accesses := s.link.accesses ++
            [{ tag := s.link.nextTag, agent := .status, kind := .write, addr := s.settingsD.programTable + 0x40, length := 64
               key := some 0, region := region
               data := statusBytes (t.ctx 0) 0 (t.allocator.delivered.look 0).sum (t.keys.records.look 0)
                 (t.side.latch.look 0) }]
          nextTag := s.link.nextTag + 1 }) ∧
      t.allocator.reports = s.allocator.reports ∧ t.controller.reports = s.controller.reports ∧ t.store = s.store ∧
      t.control = s.control ∧ t.reporter = s.reporter) ∧
  (∀ (c : ProgramCtx) (debt delivered : Nat) (r : ParityRecord) (latch : Bool),
    let bytes := statusBytes c debt delivered r latch
    bytes.length = 64 ∧ leNat bytes 0x00 1 = programStateCode c.state ∧ leNat bytes 0x01 1 = c.window.count % 256 ∧
      leNat bytes 0x02 1 = debt % 256 ∧ leNat bytes 0x03 1 = parityCode r.active ∧
      leNat bytes 0x04 1 = (if r.switchHeld then 1 else 0) ∧ leNat bytes 0x05 1 = (if latch then 1 else 0) ∧
      leNat bytes 0x06 1 = (c.lastOutcome.map outcomeCode).getD 255 ∧ leNat bytes 0x07 1 = refusalCode c.refused ∧
      leNat bytes 0x08 8 = c.nextRecord.toNat ∧ leNat bytes 0x10 4 = delivered % 4294967296 ∧
      leNat bytes 0x14 4 = (if c.lastOutcome = none then 0 else c.lastInterval.toNat) ∧
      ∀ i, 0x18 ≤ i → byteAt bytes i = 0) ∧
  ((∀ x ∈ [(ProgramState.off, 0), (.priming, 1), (.running, 2), (.draining, 3), (.held, 4)], programStateCode x.1 = x.2) ∧
    (∀ x ∈ [(none, 0), (some Parity.even, 1), (some .odd, 2)], parityCode x.1 = x.2) ∧
    ∀ x ∈ [(StartRefusal.none, 0), (.entryUnreadable, 1), (.accessKey, 2), (.chainAddress, 3), (.depth, 4), (.bufferSize, 5)
        , (.decodeDelay, 6), (.scrambleMode, 7), (.faultMode, 8), (.faultArea, 9)], refusalCode x.1 = x.2) ∧
  (∀ s : State,
    (s.controller.statusTodo = [] → s.startStatus = State.statusRun programs s) ∧
    (s.controller.statusTodo ≠ [] →
      s.startStatus = { s with controller := { s.controller with statusTodo := s.controller.statusTodo ++ programs } }) ∧
    State.statusRun [] s = { s with controller := { s.controller with
      statusTodo := [], halt := if s.controller.halt = some .status then some .done else s.controller.halt } } ∧
    ∀ p rest,
      (∀ region, checkAccess s.link.regions (s.statusRequest p) = .ok region →
        State.statusRun (p :: rest) s = { s with
          controller := { s.controller with statusTodo := p :: rest }
          link := { s.link with
            accesses := s.link.accesses ++
              [{ tag := s.link.nextTag, agent := .status, kind := .write, addr := (s.statusRequest p).addr, length := 64
                 key := some 0, region := region, data := (s.statusRequest p).data }]
            nextTag := s.link.nextTag + 1 } }) ∧
      (∀ e, checkAccess s.link.regions (s.statusRequest p) = .error e →
        State.statusRun (p :: rest) s = State.statusRun rest (s.statusNoted p)) ∧
      ∀ (pre post : List Access) (a : Access) (data : List Byte), s.link.accesses = pre ++ a :: post →
        (∀ x ∈ pre, x.tag ≠ a.tag) → (∀ x ∈ post, x.tag ≠ a.tag) → a.agent = .status →
        s.controller.statusTodo = p :: rest →
        let after : State := { s with link := { s.link with accesses := pre ++ post } }
        (a.kind = .write → exec (.accessCompletion a.tag data) s = .next (State.statusRun rest after)) ∧
        ∀ c, c = .busError a.tag ∨ c = .completionTimeout a.tag →
          exec c s = .next (State.statusRun rest (after.statusNoted p))) ∧
  (∀ (s : State) (coding : List Program) (queue : List Message), s.joinFrom coding queue =
    match coding with
    | [] => ([], queue)
    | p :: rest =>
      let own := joinSides s.settingsD.sMax p (s.ctx p).fixed.accessKey 0 ((s.ctx p).window.named 0).sides queue
      ((p, own.1) :: (s.joinFrom rest own.2).1, (s.joinFrom rest own.2).2)) ∧
  ∀ (sMax : Nat) (p : Program) (key : Byte) (index : Nat) (sides : List SlotSide) (queue : List Message),
    let joined := joinSides sMax p key index sides queue
    (sMax = 0 → joined.2 = queue ∧ joined.1 = sides.map fun d =>
      if d.disposition = .carried ∨ d.disposition = .carriedCue then { d with disposition := .droppedNoCapacity } else d) ∧
    (sMax ≠ 0 →
      joined.2 = queue ++
        (((sides.zipIdx index).filter fun x => x.1.disposition = .carried ∨ x.1.disposition = .carriedCue).map fun x =>
          ({ program := p, key := key, index := x.2, address := x.1.address, length := x.1.length } : Message)).take
          (32 - queue.length) ∧
      ∀ n : Nat, joined.1[n]? = sides[n]?.map fun d =>
        if (d.disposition = .carried ∨ d.disposition = .carriedCue) ∧
            32 - queue.length ≤
              ((sides.take n).filter fun x => x.disposition = .carried ∨ x.disposition = .carriedCue).length then
          { d with disposition := .droppedQueueFull }
        else d)

/-- R59, R60, R63: a completion report of the open interval appends its size to the program's delivered list, which keeps its
L latest entries, and sets the program's debt; a report for another interval is ignored. -/
def Obligations.CompletionReportsAreAppended : Prop :=
  ∀ (s : State) (pre post : List CompletionReport) (r : CompletionReport), s.allocator.reports = pre ++ r :: post →
    (∀ x ∈ pre, x.program ≠ r.program) →
    (∀ a, s.allocator.isOpen = true → s.allocator.current = some a → a.interval = r.interval →
      ∃ t, exec (.completionReport r.program) s = .next t ∧
        t.allocator.delivered.look r.program =
          (s.allocator.delivered.look r.program ++ [r.size]).drop
            ((s.allocator.delivered.look r.program).length + 1 - (s.ctx r.program).fixed.delay) ∧
        t.allocator.debt.look r.program = r.debt ∧
        (∀ q, q ≠ r.program → t.allocator.delivered.look q = s.allocator.delivered.look q ∧
          t.allocator.debt.look q = s.allocator.debt.look q) ∧
        t = { s with allocator := { s.allocator with
          reports := pre ++ post, delivered := t.allocator.delivered, debt := t.allocator.debt
          reported := r.program :: s.allocator.reported } }) ∧
    (s.allocator.isOpen = false ∨ (∀ a, s.allocator.current = some a → a.interval ≠ r.interval) →
      exec (.completionReport r.program) s =
        .next { s with allocator := { s.allocator with reports := pre ++ post } })

/-- R175 with R1, R57, R60 to R64, R83, R89, R108, R119, R144, R150 and R181: a boundary that does not end a drain closes one
interval and opens the next in every block that observes it. The program controller begins the intake of the new interval unless an
earlier one is in flight or the drain is already ending. The report unit gathers the figures of the closing interval, the key unit's
SWITCH_HELD among them, the blocks clear the notes they handed over, and while reporting is on the report begins with the read of the
consumed index, or waits for the one being written. The completions of the closing interval already reported are appended, then 8 for every
job not completed and every program of the hold group; every unended job is reported LATE with its pass; the pages of the sending
list, of the jobs and of a side build return. Four points are the model's: that a completion already reported counts as taken before the boundary
(log 19), the order of the returns (log 12), that a boundary which finds the drain already ending closes its interval like any other
and begins no intake (log 21), and that the side path's fault and cue notes go to the report of the interval in which they are set,
also while a late intake is in flight (log 26). -/
def Obligations.BoundaryClosesTheInterval : Prop :=
  ∀ (s : State) (lineFirst : Bool), s.timer.running = true →
    s.control.device = .running ∨
      (s.control.device = .draining ∧
        (s.control.notice = false ∨ s.control.drainEnding = true ∨ s.reporter.faultQueue ≠ [] ∨
          ∃ p, (s.line.building.look p).sequence ≠ [] ∨ s.line.holding.look p ≠ [])) →
    (s.allocator.inFlight = none →
      exec (.boundary { lineFirst := lineFirst, allocationFirst := true }) s =
        exec (.boundary { lineFirst := lineFirst, allocationFirst := false }) s) ∧
    ∃ t, exec (.boundary { lineFirst := lineFirst, allocationFirst := false }) s = .next t ∧ t.control.device = s.control.device ∧
      t.timer = { s.timer with number := s.timer.number + 1 } ∧
      t.allocator.inFlight = none ∧ t.allocator.current = none ∧ t.allocator.isOpen = true ∧
      t.allocator.rotation = s.allocator.rotation ∧
      (s.allocator.current = none →
        t.allocator.debt = PerProgram.fill 0 ∧ t.allocator.delivered = s.allocator.delivered ∧
          t.allocator.reports = s.allocator.reports) ∧
      (∀ a, s.allocator.current = some a → s.allocator.isOpen = true →
        ((a.grants.map Grant.program) ++ (a.holds.map Hold.program)).Nodup →
        (t.allocator.reports = s.allocator.reports.filter fun r => r.interval ≠ a.interval) ∧
        ∀ p,
          let sent := s.allocator.reports.filter fun r => r.interval = a.interval ∧ r.program = p
          let held := (p ∈ a.grants.map Grant.program ∧ p ∉ s.allocator.reported ∧ sent = []) ∨
            p ∈ a.holds.map Hold.program
          let sizes := sent.map CompletionReport.size ++ (if held then [8] else [])
          t.allocator.debt.look p =
              ((sent.getLast?.map CompletionReport.debt).getD (s.allocator.debt.look p)) ∧
            t.allocator.delivered.look p =
              if sizes = [] then s.allocator.delivered.look p
              else (s.allocator.delivered.look p ++ sizes).drop
                ((s.allocator.delivered.look p).length + sizes.length - (s.ctx p).fixed.delay)) ∧
      t.controller.reports = s.controller.reports ++ s.recoder.jobs.map (fun j =>
        { program := j.program, slot := j.slot, takeNumber := j.takeNumber, interval := j.interval
          body := .finish .late j.pass 8 1 0 0 }) ∧
      t.recoder.queue = [] ∧ t.recoder.re0.phase = .idle ∧ t.recoder.re1.phase = .idle ∧ t.recoder.spare = 0 ∧
      t.recoder.counters = s.recoder.counters ∧
      (∀ ps ∈ s.line.sendingPages :: s.recoder.jobs.map Job.pages, ∀ n ∈ ps,
        (n ∉ s.store.marks → n ∈ t.store.free) ∧ (n ∈ s.store.marks → n ∈ t.store.retired)) ∧
      (s.store.marks = [] → t.store.free = s.store.free ++ (s.side.build.map SideBuild.page).toList ++
        (if lineFirst then sortPages s.line.sendingPages ++ s.recoder.jobs.flatMap fun j => sortPages j.pages
         else (s.recoder.jobs.flatMap fun j => sortPages j.pages) ++ sortPages s.line.sendingPages)) ∧
      t.side.queue = ((s.side.reserved.filter fun r => r.state ≠ .built).map Reserved.message) ++ s.side.queue ∧
      t.side.reserved = [] ∧ t.side.build = none ∧ t.side.counters = s.side.counters ∧
      (∀ p, t.line.sending.look p = { entries := (s.line.building.look p).sequence, next := 0 } ∧
        t.line.building.look p = { deferred := s.line.holding.look p, picture := [], side := [] } ∧
        t.line.holding.look p = []) ∧
      t.line.request = 0 ∧ t.line.nulls = 0 ∧ t.line.sendingPages = s.line.buildingPages ∧
      t.line.buildingPages = s.line.holdingPages ∧ t.line.holdingPages = [] ∧
      t.line.shortfall = (programs.map fun p => (s.line.sending.look p).entries.length - (s.line.sending.look p).next).sum ∧
      (0 < t.line.shortfall → t.control.events.getLsbD 7 = true) ∧
      t.store.correctable = 0 ∧ t.store.errorNote = false ∧ t.recoder.figures = PerProgram.fill none ∧
      t.keys.slots = s.keys.slots ∧
      (s.controller.intake ≠ none ∨ s.control.drainEnding = true → t.controller.intake = s.controller.intake) ∧
      (s.controller.intake = none → s.control.drainEnding = false →
        ∃ i, t.controller.intake = some i ∧ i.interval = s.timer.number + 1) ∧
      ∀ region,
        let starts := s.controller.intake.isNone && !s.control.drainEnding
        let reports := s.reporter.isOn && s.reporter.work.isNone
        (starts = true →
          checkAccess s.link.regions (readRequest .intake (some 0) s.settingsD.programTable 16) = .ok region) →
        t.controller = { s.controller with
          reports := t.controller.reports, notes := PerProgram.fill Notes.clear
          intakeNotes := if starts then PerProgram.fill Notes.clear else s.controller.intakeNotes
          intake :=
            if starts then some { interval := s.timer.number + 1, program := 0, takes := 0, halted := false, phase := .live }
            else s.controller.intake } ∧
        t.side = { s.side with
          queue := t.side.queue, reserved := [], build := none, stopped := false, faultNote := PerProgram.fill false
          cueNote := PerProgram.fill false } ∧
        t.link = { s.link with
          accesses := (s.link.accesses.filter fun a => a.agent ≠ .side ∧ a.agent ≠ .engine .re0 ∧ a.agent ≠ .engine .re1) ++
            (if reports then
              [{ tag := s.link.nextTag, agent := .report, kind := .read, addr := s.settingsD.directory + 0x3C, length := 4
                 key := none, region := 0xFF, data := [] }]
            else []) ++
            (if starts then
              [{ tag := s.link.nextTag + (if reports then 1 else 0), agent := .intake, kind := .read
                 addr := s.settingsD.programTable, length := 16, key := some 0, region := region, data := [] }]
            else [])
          nextTag := s.link.nextTag + (if reports then 1 else 0) + (if starts then 1 else 0) } ∧
        (s.reporter.isOn = false → t.reporter = s.reporter) ∧
        (s.reporter.isOn = true → ∃ f : Figures,
          s.Gathers lineFirst (fun p => t.allocator.debt.look p) (fun p => (t.allocator.delivered.look p).sum) f ∧
            f.endsDrain = false ∧
            (s.reporter.work ≠ none → t.reporter = { s.reporter with waiting := s.reporter.waiting ++ [f] }) ∧
            (s.reporter.work = none → s.reporter.waiting = [] →
              t.reporter = { s.reporter with work := some { figures := f, phase := .consumed } }))

/-- R38: the effective complexity counts A twice and each picture behind it once, lies between the least and the greatest
complexity of the window, and is A's own for a window of one. -/
def Obligations.EffectiveComplexityIsAWeightedMean : Prop :=
  ∀ (a : Nat) (rest : List Nat),
    effectiveComplexity (a :: rest) = (2 * a + rest.sum) / (rest.length + 2) ∧
      (∀ lo, (∀ x ∈ a :: rest, lo ≤ x) → lo ≤ effectiveComplexity (a :: rest)) ∧
      (∀ hi, (∀ x ∈ a :: rest, x ≤ hi) → effectiveComplexity (a :: rest) ≤ hi) ∧ effectiveComplexity [a] = a

/-! ### Recoding -/

/-- R73, with R72, R77, R78 and R87: the requantized level: its magnitude and sign, the dropped zero, the level kept where the quantizer
is kept, the range of the numerator and of the quantizers of pass 1, pass 2 and the floor pass, and a magnitude that never grows. The
quantizers of pass 1 are those of R77, and the mean of a result's quantizers is the length-weighted one of R87, rounded up. -/
def Obligations.RequantizationNeverGrowsALevel : Prop :=
  (∀ (d qIn qOut : Nat) (level : Int), d ≤ 7 → 1 ≤ qIn → 1 ≤ qOut → qOut ≤ 62 →
    (requantize d qIn qOut level).natAbs = (8 * level.natAbs * qIn + d * qOut) / (8 * qOut) ∧
      (0 < level → 0 ≤ requantize d qIn qOut level) ∧ (level < 0 → requantize d qIn qOut level ≤ 0) ∧
      (qOut = qIn → requantize d qIn qOut level = level) ∧
      (level.natAbs ≤ 2047 → qIn ≤ 62 → 8 * level.natAbs * qIn + d * qOut < 2 ^ 20) ∧
      (qIn ≤ qOut → (requantize d qIn qOut level).natAbs ≤ level.natAbs)) ∧
  (∀ (d qIn qOut cutoff : Nat) (block : List Coeff) (position : Nat) (level : Int),
    (position, level) ∈ keptEntries d qIn qOut cutoff block ↔
      level ≠ 0 ∧ position < cutoff ∧ ∃ l, (position, l) ∈ block ∧ level = requantize d qIn qOut l) ∧
  (∀ a b q : Nat, 0 < b → (ceilDiv a b ≤ q ↔ a ≤ q * b)) ∧
  (∀ (slices : List SliceDesc) (sourceSize budget : Nat),
    (sourceSize ≤ budget * 192 → pass1Quants slices sourceSize budget = slices.map SliceDesc.qIn) ∧
    (budget * 192 < sourceSize → pass1Quants slices sourceSize budget =
      slices.map fun x => Nat.min 62 (ceilDiv (x.qIn * ceilDiv (256 * sourceSize) (budget * 192)) 256))) ∧
  (∀ (slices : List SliceDesc) (quants : List Nat), slices.length = quants.length →
    let total := (slices.map SliceDesc.length).sum
    0 < total →
      (∀ q, weightedMean slices quants ≤ q ↔ ((slices.zip quants).map fun x => x.1.length * x.2).sum ≤ q * total) ∧
      ∀ lo hi, (∀ q ∈ quants, lo ≤ q ∧ q ≤ hi) → lo ≤ weightedMean slices quants ∧ weightedMean slices quants ≤ hi) ∧
  ∀ (slices : List SliceDesc) (sourceSize budget b1 : Nat), (∀ x ∈ slices, 1 ≤ x.qIn ∧ x.qIn ≤ 62) → 1 ≤ budget →
    ∀ (i : Nat) (x : SliceDesc), slices[i]? = some x →
      (∃ q, (pass1Quants slices sourceSize budget)[i]? = some q ∧ x.qIn ≤ q ∧ q ≤ 62) ∧
      (∃ q, (pass2Quants (pass1Quants slices sourceSize budget) b1 budget)[i]? = some q ∧ x.qIn ≤ q ∧ q ≤ 62) ∧
      (floorQuants slices)[i]? = some 62 ∧ x.qIn ≤ 62

/-- R26, R27 and the formats of 2.2 and 11.2: the bytes that the format gives for a list of blocks parse to exactly that list: the
header with marker, q_in, block count and a fourth byte of 0, and for each block its count and its entries, each with its position and its
level, least significant byte first. What parses is written so: a slice whose marker, q_in or fourth byte is another, or whose block
count is 0, is malformed, and a slice that parses has exactly its descriptor's length, its block count lies in 1..255, and in each block
the positions rise strictly within 0..63 and every magnitude lies in 1..2047. -/
def Obligations.ParsedSlicesAreWellFormed : Prop :=
  let formed := fun (d : SliceDesc) (blocks : List (List Coeff)) =>
    4 + (blocks.map fun b => 1 + 3 * b.length).sum = d.length ∧ 1 ≤ blocks.length ∧ blocks.length ≤ 255 ∧
      ∀ b ∈ blocks, b.length ≤ 64 ∧ (b.map Prod.fst).Pairwise (· < ·) ∧
        ∀ e ∈ b, e.1 ≤ 63 ∧ 1 ≤ e.2.natAbs ∧ e.2.natAbs ≤ 2047
  let written := fun (d : SliceDesc) (blocks : List (List Coeff)) =>
    ([0xE1, BitVec.ofNat 8 d.qIn, BitVec.ofNat 8 blocks.length, 0] : List Byte) ++ blocks.flatMap fun b =>
      BitVec.ofNat 8 b.length :: b.flatMap fun e =>
        [BitVec.ofNat 8 e.1, (BitVec.ofInt 16 e.2).extractLsb' 0 8, (BitVec.ofInt 16 e.2).extractLsb' 8 8]
  (∀ (d : SliceDesc) (blocks : List (List Coeff)), d.qIn ≤ 255 → formed d blocks →
    parseSlice d (written d blocks) = some blocks) ∧
  (∀ (d : SliceDesc) (data : List Byte) (blocks : List (List Coeff)), data.length = d.length →
    parseSlice d data = some blocks → formed d blocks ∧ data = written d blocks) ∧
  (∀ (d : SliceDesc) (data : List Byte), data.length = d.length →
    data.length < 4 ∨ byteAt data 0 ≠ 0xE1 ∨ leNat data 1 1 ≠ d.qIn ∨ byteAt data 2 = 0 ∨ byteAt data 3 ≠ 0 →
      parseSlice d data = none) ∧
  ∀ (d : SliceDesc) (data : List Byte) (blocks : List (List Coeff)), parseSlice d data = some blocks → formed d blocks

/-- R39, R67, R71, R72, R74 to R81, R84, R86, R88, R107: how a pass codes a picture, and what follows the end of pass 1 or pass 2. A kept
entry is coded by its run over kept entries and its level, a slice as its header, its codes without gaps and the padding, and the
pass stops at the first code after which the running size exceeds a limit. The end of a slice read codes the slice and leads to the
next one or to the end of the pass; a malformed slice and a read refused or failed end the job. An accepted result goes to its
build, which keeps the key of a SCRAMBLED program or ends with KEY_MISSING, and holds pages from the head of the free list or ends
with STORE_FULL; a result of pass 1 that is not accepted leads to pass 2, a BI picture not accepted in pass 2 to its hold ending,
and a KEY or PRED picture to the floor pass. An engine that a job's ending leaves idle takes the job at the head of the queue, and
begins its pass 1 on the picture of its window slot. -/
def Obligations.PassEndJudgesTheResult : Prop :=
  (∀ (table : List CodeEntry) (run : Nat) (level : Int),
    (∀ index x, table[index]? = some x →
      codeword table index = (List.range x.length).map fun i => x.value.getLsbD (x.length - 1 - i)) ∧
    (run ≤ 15 → level.natAbs ≤ 8 →
      entryCode table run level = codeword table (run * 8 + (level.natAbs - 1)) ++ [decide (level < 0)]) ∧
    (15 < run ∨ 8 < level.natAbs →
      entryCode table run level = codeword table 128 ++ ((List.range 6).map fun i => run.testBit (5 - i)) ++
        (List.range 12).map fun i => (BitVec.ofInt 12 level).getLsbD (11 - i))) ∧
  (∀ (table : List CodeEntry) (kept : List Coeff),
    (blockCodes table 0 kept).length = kept.length + 1 ∧
      (blockCodes table 0 kept)[kept.length]? = some (codeword table 129) ∧
      (∀ x, kept[0]? = some x → (blockCodes table 0 kept)[0]? = some (entryCode table x.1 x.2)) ∧
      ∀ i x y, kept[i]? = some y → kept[i + 1]? = some x →
        (blockCodes table 0 kept)[i + 1]? = some (entryCode table (x.1 - y.1 - 1) x.2)) ∧
  (∀ bits : List Bool, (packBits bits).length = (bits.length + 7) / 8 ∧
    ∀ i < 8 * (packBits bits).length,
      ((packBits bits)[i / 8]?.getD 0).getLsbD (7 - i % 8) = bits[i]?.getD false) ∧
  (∀ (table : List CodeEntry) (deadZone cutoff : Nat) (limits : List (Nat × StopReason)) (size index : Nat) (d : SliceDesc)
      (qOut : Nat) (blocks : List (List Coeff)),
    let codes := blocks.flatMap fun b => blockCodes table 0 (keptEntries deadZone d.qIn qOut cutoff b)
    let running := fun n => size + 4 + ((codes.take n).flatten.length + 7) / 8
    ((∀ n, 1 ≤ n → n ≤ codes.length → ∀ l ∈ limits, running n ≤ l.1) →
      codeSlice table deadZone cutoff limits size index d qOut blocks =
        .ok ([0xC5, BitVec.ofNat 8 qOut, BitVec.ofNat 8 blocks.length, BitVec.ofNat 8 index] ++ packBits codes.flatten)) ∧
    ∀ n before bound reason after, 1 ≤ n → n ≤ codes.length → (∀ m, 1 ≤ m → m < n → ∀ l ∈ limits, running m ≤ l.1) →
      limits = before ++ (bound, reason) :: after → (∀ l ∈ before, running n ≤ l.1) → bound < running n →
      codeSlice table deadZone cutoff limits size index d qOut blocks = .error reason) ∧
  (∀ (s : State) (e : Engine) (j : Job) (w : PassWork) (d : SliceDesc) (pre post : List Access) (a : Access)
      (data : List Byte),
    s.link.accesses = pre ++ a :: post → (∀ x ∈ pre, x.tag ≠ a.tag) → (∀ x ∈ post, x.tag ≠ a.tag) → a.agent = .engine e →
    (s.recoder.engine e).phase = .coding j w → w.source.slices[w.next]? = some d →
    let rest : State := { s with link := { s.link with accesses := pre ++ post } }
    (∀ c, c = .busError a.tag ∨ c = .completionTimeout a.tag →
      ∃ t, exec c s = .next t ∧ rest.EndsFaulted e j
        { result := .bus, region := a.region, kind := a.kind, addr := a.addr, length := a.length } t) ∧
    (a.kind = .read → a.length = data.length →
      (parseSlice d data = none →
        ∃ t, exec (.accessCompletion a.tag data) s = .next t ∧ rest.EndsHeld e j .malformed t) ∧
      ∀ blocks, parseSlice d data = some blocks →
        let coded := codeSlice (s.recoder.codeTable.getD []) s.settingsD.deadZone w.cutoff w.limits w.size w.next d
          (w.quants.getD w.next 0) blocks
        (∀ reason, coded = .error reason →
          exec (.accessCompletion a.tag data) s = .next { rest with
            recoder := s.recoder.setEngine e
              { s.recoder.engine e with phase := .passEnded j { w with stopped := some reason } } }) ∧
        ∀ bytes, coded = .ok bytes →
          ∃ t, exec (.accessCompletion a.tag data) s = .next t ∧
            ({ rest with
              recoder := s.recoder.setEngine e
                { s.recoder.engine e with
                  scratch := ((s.recoder.engine e).scratch ++ bytes).take 2097152 } } : State).ReadsSlice e j
              { w with next := w.next + 1, size := w.size + bytes.length } t)) ∧
  (∀ (s : State) (e : Engine),
    ((s.recoder.engine e).phase ≠ .idle ∨ s.recoder.queue = [] → s.engineTakes e = s) ∧
    ∀ j rest, (s.recoder.engine e).phase = .idle → s.recoder.queue = j :: rest →
      let x := (s.ctx j.program).window.slots[j.slot]
      ({ s with recoder := { s.recoder with queue := rest } } : State).BeginsPass e { j with pass := 1 }
        { sequence := x.sequence, kind := x.kind, sourceSize := x.sourceSize, sliceBase := x.sliceBase, slices := x.slices }
        (pass1Quants x.slices x.sourceSize j.budget) 64 [] (s.engineTakes e)) ∧
  ∀ (s : State) (e : Engine) (j : Job) (w : PassWork), (s.recoder.engine e).phase = .passEnded j w →
    j.pass = 1 ∨ j.pass = 2 →
    (w.stopped = none → w.size ≤ j.budget * 192 → w.size ≤ j.room →
      ∃ t, exec (.passEnd e) s = .next t ∧ s.BuildsResult e j w t) ∧
    (w.stopped ≠ none ∨ j.budget * 192 < w.size ∨ j.room < w.size →
      (j.pass = 1 →
        ∃ t, exec (.passEnd e) s = .next t ∧
          s.BeginsPass e { j with pass := 2 } w.source
            (w.quants.map fun q => Nat.min 62 (Nat.max (q + 1)
              (ceilDiv (q * ceilDiv (256 * w.size) (j.budget * 192)) 256)))
            (Nat.max 1 (64 * (j.budget * 192) / w.size)) [(Nat.min (j.budget * 192) j.room, .notAccepted)] t) ∧
      (j.pass = 2 → w.source.kind ≠ .bi →
        ∃ t, exec (.passEnd e) s = .next t ∧
          s.BeginsPass e { j with pass := 3 } w.source (w.source.slices.map fun _ => 62) 1
            [(j.room, .bufferHold), ((j.budget + 8 + s.recoder.spare) * 192, .overrun)] t) ∧
      (j.pass = 2 → w.source.kind = .bi → ∃ t, exec (.passEnd e) s = .next t ∧ s.EndsHeld e j .substituted t))

/-- R79, R82, R84, R86, R107: the end of a floor pass. A result that stopped early is refused with the reason its limit names. Any
other is offered to the spare pool: above the room it is refused; a result whose cells are at most budget, spare pool and 8
together is accepted, the pool covering what it can of the overrun and debt the rest; more is refused. For an accepted result
the pool is lowered by its draw, and its build begins, which may end with KEY_MISSING or STORE_FULL. An engine whose job ends takes
the job at the head of the queue (R71). -/
def Obligations.FloorPassEndOffersTheResult : Prop :=
  (∀ budget room spare size : Nat,
    (room < size → floorOffer budget room spare size = .error .bufferHold) ∧
    (size ≤ room → size ≤ budget * 192 → floorOffer budget room spare size = .ok (0, 0)) ∧
    (size ≤ room → (size + 191) / 192 ≤ budget + spare + 8 →
      ∃ draw debt, floorOffer budget room spare size = .ok (draw, debt) ∧
        draw = Nat.min ((size + 191) / 192 - budget) spare ∧ draw + debt = (size + 191) / 192 - budget ∧ debt ≤ 8) ∧
    (∀ draw debt, floorOffer budget room spare size = .ok (draw, debt) →
      size ≤ room ∧ draw ≤ spare ∧ debt ≤ 8 ∧ draw + debt = (size + 191) / 192 - budget ∧ (0 < debt → draw = spare)) ∧
    (size ≤ room → budget + spare + 8 < (size + 191) / 192 →
      floorOffer budget room spare size = .error .discardedOverrun)) ∧
  ∀ (s : State) (e : Engine) (j : Job) (w : PassWork), (s.recoder.engine e).phase = .passEnded j w → j.pass = 3 →
    (w.stopped = none → w.size ≤ j.room → (w.size + 191) / 192 ≤ j.budget + s.recoder.spare + 8 →
      ∃ t draw debt, exec (.floorPassEnd e) s = .next t ∧
        draw = Nat.min ((w.size + 191) / 192 - j.budget) s.recoder.spare ∧
        draw + debt = (w.size + 191) / 192 - j.budget ∧ debt ≤ 8 ∧
        ({ s with recoder := { s.recoder with spare := s.recoder.spare - draw } } : State).BuildsResult e
          { j with draw := draw, debt := debt } w t) ∧
    ∀ o, (w.stopped = some .bufferHold ∧ o = .bufferHold) ∨ (w.stopped = some .overrun ∧ o = .discardedOverrun) ∨
        (w.stopped = none ∧ j.room < w.size ∧ o = .bufferHold) ∨
        (w.stopped = none ∧ w.size ≤ j.room ∧ j.budget + s.recoder.spare + 8 < (w.size + 191) / 192 ∧
          o = .discardedOverrun) →
      ∃ t, exec (.floorPassEnd e) s = .next t ∧ s.EndsHeld e j o t

/-- R84, R85, R87, R118 to R120, R148, R149: a job's completion. Its first budget + draw cells take the placeholder's place, the rest
wait in the deferred holding, each cell stands in the place the list names, and the job's pages pass on: those written for this
list to the building list, those of deferred cells to the deferred holding, and those no cell was written to, in ascending order, to
the tail of the free list, or into the retired set where they carry a mark. The cells are cut from the first B bytes of the engine's
scratch buffer, count on from the placeholder, are stamped with line interval k + 1 and scrambled under the key that the build kept. The
counter goes on from the placeholder's count, the spare pool takes what the budget leaves, the figures of R87 are kept for the report
unit, both reports go out with the six values of R85, and the engine, idle then, takes the job at the head of the queue (R71). -/
def Obligations.JobCompletionLinksItsCells : Prop :=
  ∀ (s : State) (e : Engine) (j : Job) (b : Build), (s.recoder.engine e).phase = .building j b →
    let cells := pictureCells j.program j.count (j.interval + 1) b.sequence b.key 0
      (payloads ((s.recoder.engine e).scratch.take b.size))
    let here := placedEntries (j.pages.take ((j.budget + j.draw + 19) / 20)) (cells.take (j.budget + j.draw)).length
    let later := placedEntries (j.pages.drop ((j.budget + j.draw + 19) / 20)) (cells.drop (j.budget + j.draw)).length
    let mine := j.pages.take ((j.budget + j.draw + 19) / 20)
    let theirs := j.pages.drop ((j.budget + j.draw + 19) / 20)
    let written := (Nat.min (j.budget + j.draw) cells.length + 19) / 20
    let deferred := (cells.length - (j.budget + j.draw) + 19) / 20
    let unwritten := mine.drop written ++ theirs.drop deferred
    ∃ t : State, exec (.jobCompletion e) s = .next (t.engineTakes e) ∧
      t.line.buildingPages = s.line.buildingPages ++ mine.take written ∧
      t.line.holdingPages = s.line.holdingPages ++ theirs.take deferred ∧
      (∃ free, t.store.free = s.store.free ++ free ∧ free.Pairwise (· < ·) ∧
        ∀ p, p ∈ free ↔ p ∈ unwritten ∧ p ∉ s.store.marks) ∧
      (∀ p, p ∈ t.store.retired ↔ p ∈ s.store.retired ∨ (p ∈ unwritten ∧ p ∈ s.store.marks)) ∧
      (∀ p, p ∈ t.store.marks ↔ p ∈ s.store.marks ∧ p ∉ unwritten) ∧
      (t.line.building.look j.program).picture =
        ((s.line.building.look j.program).picture.flatMap fun x =>
          match x with
          | .produced _ c _ => if c = j.count then here else [x]
          | .stored .. => [x]) ∧
      (t.line.building.look j.program).deferred = (s.line.building.look j.program).deferred ∧
      (t.line.building.look j.program).side = (s.line.building.look j.program).side ∧
      t.line.holding.look j.program = s.line.holding.look j.program ++ later ∧
      (∀ q, q ≠ j.program →
        t.line.building.look q = s.line.building.look q ∧ t.line.holding.look q = s.line.holding.look q) ∧
      (j.pages.Nodup → (j.budget + j.draw + 19) / 20 + ((cells.length - (j.budget + j.draw)) + 19) / 20 ≤ j.pages.length →
        (here ++ later).map (fun x => match x with
          | .stored page place => t.store.cells.read (placeIndex page place)
          | .produced .. => none) = cells.map some ∧
        ∀ place, pageOfPlace place ∉ j.pages → t.store.cells.read place = s.store.cells.read place) ∧
      t.recoder = { s.recoder.setEngine e { s.recoder.engine e with phase := .idle } with
        counters := s.recoder.counters.put j.program (j.count + BitVec.ofNat 4 cells.length)
        spare := s.recoder.spare + (j.budget - cells.length)
        figures := s.recoder.figures.put j.program
          (some { outcome := some .ok, pass := j.pass, cells := cells.length, meanQ := b.meanQ }) } ∧
      t.store = { s.store with
        cells := t.store.cells, residue := t.store.residue, free := t.store.free, retired := t.store.retired
        marks := t.store.marks } ∧
      (∀ place, pageOfPlace place ∈ unwritten → t.store.cells.read place = none) ∧
      (∀ place, pageOfPlace place ∉ unwritten →
        t.store.residue.read place = s.store.residue.read place ∧
          ((∀ page i, .stored page i ∈ here ++ later → placeIndex page i ≠ place) →
            t.store.cells.read place = s.store.cells.read place)) ∧
      t.line = { s.line with
        building := t.line.building, buildingPages := t.line.buildingPages, holding := t.line.holding
        holdingPages := t.line.holdingPages } ∧
      t.controller = { s.controller with
        reports := s.controller.reports ++
          [{ program := j.program, slot := j.slot, takeNumber := j.takeNumber, interval := j.interval
             body := .finish .ok j.pass b.size cells.length b.meanQ j.debt }] } ∧
      t.allocator = { s.allocator with
        reports := s.allocator.reports ++
          [{ program := j.program, interval := j.interval, outcome := .ok, pass := j.pass, size := b.size
             cells := cells.length, meanQ := b.meanQ, debt := j.debt }] } ∧
      t = { s with
        store := t.store, line := t.line, recoder := t.recoder, controller := t.controller, allocator := t.allocator }

/-- R70, R84, R110, R113, R114, R141 and 11.3: a sequence of bytes is cut into ceil(B / 192) payloads which together are the sequence;
every payload but the last has 192 bytes and the last 1 to 192. Each cell built from one has 200 bytes: its header by 11.3, and
the payload, in a scrambled cell under the chain, filled up with 0x00. The cell of a produced entry carries the hold picture, and a
null cell nothing. -/
def Obligations.PayloadsMakeUpTheSequence : Prop :=
  ∀ bs : List Byte,
    (payloads bs).flatten = bs ∧ (payloads bs).length = (bs.length + 191) / 192 ∧
      (∀ x ∈ payloads bs, 1 ≤ x.length ∧ x.length ≤ 192) ∧ (∀ x ∈ (payloads bs).dropLast, x.length = 192) ∧
      ∀ (p : Program) (count : BitVec 4) (interval sequence : Word) (key : Option (Parity × Long)) (index j : Nat),
        let start := fun n => if n = 0 then 32 else 0
        let header := fun (kind : Nat) (n used : Nat) (low : BitVec 16) =>
          [0xA6, BitVec.ofNat 8 kind, BitVec.ofNat 8 (p.val * 16 + (count + BitVec.ofNat 4 n).toNat), BitVec.ofNat 8 used
           , interval.extractLsb' 8 8, interval.extractLsb' 0 8, low.extractLsb' 8 8, low.extractLsb' 0 8]
        (∀ c ∈ pictureCells p count interval sequence key j (payloads bs), c.length = 200) ∧
        (∀ c ∈ sideCells p count interval index j (payloads bs), c.length = 200) ∧
        (pictureCells p count interval sequence key j (payloads bs)).length = (payloads bs).length ∧
        (sideCells p count interval index j (payloads bs)).length = (payloads bs).length ∧
        (∀ i x, (payloads bs)[i]? = some x →
          (pictureCells p count interval sequence none j (payloads bs))[i]? =
            some (header (start (j + i)) (j + i) x.length (sequence.setWidth 16) ++ x ++ List.replicate (192 - x.length) 0) ∧
          (∀ q word,
            let clear := header (start (j + i) + (if q = .even then 1 else 2)) (j + i) x.length (sequence.setWidth 16)
            (pictureCells p count interval sequence (some (q, word)) j (payloads bs))[i]? =
              some (clear ++ chainUnits (Config.cellPermutation word) (BitVec.ofNat 64 (beNat clear)) x ++
                List.replicate (192 - x.length) 0)) ∧
          (sideCells p count interval index j (payloads bs))[i]? =
            some (header (64 + start (j + i)) (j + i) x.length (BitVec.ofNat 16 index) ++ x ++
              List.replicate (192 - x.length) 0)) ∧
        (∀ low : BitVec 16, holdCell p count low interval =
          header 32 0 8 low ++ [0x5A, 0x17, low.extractLsb' 8 8, low.extractLsb' 0 8, 3, 0, 0, 0] ++ List.replicate 184 0) ∧
        nullCell interval =
          [0xA6, 0x80, 0, 0, interval.extractLsb' 8 8, interval.extractLsb' 0 8, 0, 0] ++ List.replicate 192 0

/-! ### Reports to the program controller -/

/-- R22, R23, R35, R37, R39, with R10, R11, R166, R167: a report matches where the window holds a picture, A's physical slot is the
one named and A's take number the one named. A report that names window picture A begins A's record writes: a finish report the outcome
fields, a STRICT content fault report FAULTED. A report that does not match is discarded and changes nothing else. The outcome fields
written, DONE follows; DONE written, A leaves the window with its outcome as the last one, and a DRAINING program whose window that
empties is OFF. Where either write fails or is refused, one attempt to write FAULTED follows, and at its end, well or not, A is finished
all the same and the program is HELD with its fault record request. At the end of a STRICT fault's FAULTED write the picture stays in A,
marked where the write succeeded (R13), and the program is HELD. The last write ended, what waited for the handling goes on. Four points
are the model's deductions: that a report of a program whose window is being abandoned does not match and that an abandonment waits for
a finish being written (log 16), that the coding interval written and kept is the job's (log 18), that a DRAINING program whose window a
failed finish empties is HELD (log 24), and that the fault record request holds what stands when it is made (log 25). -/
def Obligations.ReportsActOnPictureA : Prop :=
  (∀ (s : State) (r : Report),
    let w := (s.ctx r.program).window
    s.reportMatches r = true ↔
      1 ≤ w.count ∧ w.head = r.slot ∧ w.slots[w.head].takeNumber = r.takeNumber ∧
        (∀ i k, s.controller.intake = some i → i.program = r.program →
          i.phase ≠ .abandonOutcome k ∧ i.phase ≠ .abandonState k) ∧
        ∀ rest k x, s.controller.halt ≠ some (.outcome (r.program :: rest) k x) ∧
          s.controller.halt ≠ some (.state (r.program :: rest) k x)) ∧
  (∀ (s : State) (pre post : List Report) (r : Report) (region : Byte), s.controller.reports = pre ++ r :: post →
    (s.ctx r.program).finish = none →
    (∀ o pass size cells meanQ debt, r.body = .finish o pass size cells meanQ debt →
      (∀ x ∈ pre, x.isFinish r.program = false) →
      (s.reportMatches r = false →
        exec (.finishReport r.program) s = .next { s with controller := { s.controller with reports := pre ++ post } }) ∧
      (s.reportMatches r = true →
        checkAccess s.link.regions (writeRequest (.finish r.program) (some (s.ctx r.program).fixed.accessKey)
          (((s.ctx r.program).window.named 0).record + 0x30)
          (outcomeBytes o pass size cells meanQ r.interval ((s.ctx r.program).window.named 0).sides)) = .ok region →
        exec (.finishReport r.program) s = .next { s with
          controller := { s.controller with
            reports := pre ++ post
            programs := s.controller.programs.modify r.program fun c =>
              { c with finish := some { report := r, phase := .outcome } } }
          link := { s.link with
            accesses := s.link.accesses ++
              [{ tag := s.link.nextTag, agent := .finish r.program, kind := .write
                 addr := ((s.ctx r.program).window.named 0).record + 0x30
                 length := (outcomeBytes o pass size cells meanQ r.interval ((s.ctx r.program).window.named 0).sides).length
                 key := some (s.ctx r.program).fixed.accessKey, region := region
                 data := outcomeBytes o pass size cells meanQ r.interval ((s.ctx r.program).window.named 0).sides }]
            nextTag := s.link.nextTag + 1 } }) ∧
      ∀ result region, s.reportMatches r = true →
        checkAccess s.link.regions (writeRequest (.finish r.program) (some (s.ctx r.program).fixed.accessKey)
          (((s.ctx r.program).window.named 0).record + 0x30)
          (outcomeBytes o pass size cells meanQ r.interval ((s.ctx r.program).window.named 0).sides)) = .error (result, region) →
        ∃ t, exec (.finishReport r.program) s = .next t ∧
          (({ s with controller := { s.controller with reports := pre ++ post } } : State).finishAt r .outcome).FinishFails r
            { result := result, region := region, kind := .write, addr := ((s.ctx r.program).window.named 0).record + 0x30
              length := 24 } t) ∧
    ∀ f pass, r.body = .fault f pass → (∀ x ∈ pre, x.isFault r.program = false) →
      (s.reportMatches r = false →
        exec (.faultReport r.program) s = .next { s with controller := { s.controller with reports := pre ++ post } }) ∧
      (s.reportMatches r = true →
        checkAccess s.link.regions (writeRequest (.finish r.program) (some (s.ctx r.program).fixed.accessKey)
          ((s.ctx r.program).window.named 0).record [faultedCode]) = .ok region →
        exec (.faultReport r.program) s = .next { s with
          controller := { s.controller with
            reports := pre ++ post
            programs := s.controller.programs.modify r.program fun c =>
              { c with finish := some { report := r, phase := .strict } } }
          link := { s.link with
            accesses := s.link.accesses ++
              [{ tag := s.link.nextTag, agent := .finish r.program, kind := .write
                 addr := ((s.ctx r.program).window.named 0).record, length := 1
                 key := some (s.ctx r.program).fixed.accessKey, region := region, data := [4] }]
            nextTag := s.link.nextTag + 1 } }) ∧
      ∀ e, s.reportMatches r = true →
        checkAccess s.link.regions (writeRequest (.finish r.program) (some (s.ctx r.program).fixed.accessKey)
          ((s.ctx r.program).window.named 0).record [faultedCode]) = .error e →
        ∃ t, exec (.faultReport r.program) s = .next t ∧
          (({ s with controller := { s.controller with reports := pre ++ post } } : State).finishAt r .strict).StrictHolds r f
            pass false t) ∧
  (∀ (s : State) (pre post : List Access) (a : Access) (r : Report) (data : List Byte),
    s.link.accesses = pre ++ a :: post → (∀ x ∈ pre, x.tag ≠ a.tag) → (∀ x ∈ post, x.tag ≠ a.tag) →
    a.agent = .finish r.program → a.kind = .write →
    let rest : State := { s with link := { s.link with accesses := pre ++ post } }
    let failure : Failure := { result := .bus, region := a.region, kind := .write, addr := a.addr, length := a.length }
    let failed := fun c => c = .busError a.tag ∨ c = .completionTimeout a.tag
    let handling := fun phase => (s.ctx r.program).finish = some { report := r, phase := phase }
    (handling .outcome →
      (∃ t, exec (.accessCompletion a.tag data) s = .next t ∧ rest.WritesDone r t) ∧
        ∀ c, failed c → ∃ t, exec c s = .next t ∧ rest.FinishFails r failure t) ∧
    (handling .state →
      (∃ t, exec (.accessCompletion a.tag data) s = .next t ∧ rest.Finishes r t) ∧
        ∀ c, failed c → ∃ t, exec c s = .next t ∧ rest.FinishFails r failure t) ∧
    (∀ f c, handling (.afterFailure f) → c = .accessCompletion a.tag data ∨ failed c →
      ∃ t, exec c s = .next t ∧ rest.FinishesHeld r f t) ∧
    ∀ f pass, r.body = .fault f pass → handling .strict →
      (∃ t, exec (.accessCompletion a.tag data) s = .next t ∧ rest.StrictHolds r f pass true t) ∧
        ∀ c, failed c → ∃ t, exec c s = .next t ∧ rest.StrictHolds r f pass false t) ∧
  ∀ (s : State) (p : Program) (r : Report), (s.ctx p).finish = some { report := r, phase := .state } → r.program = p →
    (∀ todo x, s.controller.halt ≠ some (.waitFinish todo x)) →
    (∀ i, s.controller.intake = some i → i.phase ≠ .waitFinish) →
    ((s.finishReply p (.done [])).ctx p).window = (s.ctx p).window.pop ∧
      ((s.finishReply p (.done [])).ctx p).lastOutcome = some r.body.outcome ∧
      ((s.finishReply p (.done [])).ctx p).lastInterval = r.interval ∧
      ((s.finishReply p (.done [])).ctx p).finish = none ∧
      ((s.finishReply p (.done [])).ctx p).state =
        if (s.ctx p).state = .draining ∧ (s.ctx p).window.count ≤ 1 then .off else (s.ctx p).state

/-- R166, R167, R168 and the fault record of 11.2: when the write of the fault record at the head of the queue ends, its request leaves the
queue, PROGRAM_HELD is raised whether or not the write succeeded, a record not written is noted as lost, and the next request's write
begins: its 64 bytes go to the request's area with the request's key, and a refused write has ended at once. The bytes carry the cause,
the access result, the access kind, the region index, the interval, the record address, the offending range, the sequence, the pass,
the window count and the sequences of the window places, each at its offset and with its code; every other byte is 0. That area, key,
interval and window are those of the moment of the request is the model's deduction (log 25). -/
def Obligations.FaultRecordWriteEndRaisesProgramHeld : Prop :=
  (∀ r : FaultRequest,
    let bytes := faultRecordBytes r
    bytes.length = 64 ∧ leNat bytes 0x00 1 = causeCode r.info.cause ∧ leNat bytes 0x01 1 = accessResultCode r.info.result ∧
      leNat bytes 0x02 1 = accessKindCode r.info.kind ∧ byteAt bytes 0x03 = r.info.region ∧
      leNat bytes 0x04 4 = r.interval.toNat ∧ leNat bytes 0x08 8 = r.info.record.toNat ∧
      leNat bytes 0x10 8 = r.info.addr.toNat ∧ leNat bytes 0x18 4 = r.info.length % 4294967296 ∧
      leNat bytes 0x1C 4 = r.info.sequence.toNat ∧ leNat bytes 0x20 1 = r.info.pass % 256 ∧
      leNat bytes 0x21 1 = r.count % 256 ∧ leNat bytes 0x22 2 = 0 ∧
      (∀ i < 4, leNat bytes (0x24 + 4 * i) 4 = (r.sequences[i]?.map BitVec.toNat).getD 0) ∧
      ∀ i, 0x34 ≤ i → byteAt bytes i = 0) ∧
  (∀ x ∈ [(FaultCause.recordRead, 1), (.linkInvalid, 2), (.recordWrite, 3), (.sliceTable, 4), (.sliceData, 5)],
    causeCode x.1 = x.2) ∧
  (∀ x ∈ [(none, 0), (some AccessResult.noRegion, 1), (some .keyMismatch, 2), (some .rights, 3), (some .bus, 4)],
    accessResultCode x.1 = x.2) ∧
  (∀ x ∈ [(AccessKind.read, 0), (.write, 1)], accessKindCode x.1 = x.2) ∧
  ∀ (s : State) (written : Bool) (r : FaultRequest) (rest : List FaultRequest),
    s.reporter.faultWrite = some (.ended written) → s.reporter.faultQueue = r :: rest →
    ∃ t, exec .faultRecordWriteEnd s = .next t ∧ t.reporter.faultQueue = rest ∧
      (t.reporter.faultWrite = none ↔ rest = []) ∧
      t.control = { s.control with
        events := s.control.events ||| 8, line := ((s.control.events ||| 8) &&& s.control.enable) != 0 } ∧
      (∀ p, (t.controller.notes.look p).faultRecordLost =
        ((s.controller.notes.look p).faultRecordLost || (p == r.program && !written))) ∧
      (∀ p, t.ctx p = s.ctx p) ∧
      (rest = [] → t.link = s.link) ∧
      (∀ r' rest', rest = r' :: rest' → (faultRecordBytes r').length = 64 ∧
        (∀ region, checkAccess s.link.regions
            { agent := .faultRecord, kind := .write, addr := r'.area, length := 64, key := some r'.key
              data := faultRecordBytes r' } = .ok region →
          t.reporter.faultWrite = some .waiting ∧
          t.link = { s.link with
            accesses := s.link.accesses ++
              [{ tag := s.link.nextTag, agent := .faultRecord, kind := .write, addr := r'.area, length := 64
                 key := some r'.key, region := region, data := faultRecordBytes r' }]
            nextTag := s.link.nextTag + 1 }) ∧
        ∀ e, checkAccess s.link.regions
            { agent := .faultRecord, kind := .write, addr := r'.area, length := 64, key := some r'.key
              data := faultRecordBytes r' } = .error e →
          t.reporter.faultWrite = some (.ended false) ∧ t.link = s.link) ∧
      t = { s with
        control := t.control, link := t.link
        controller := { s.controller with notes := t.controller.notes }
        reporter := { s.reporter with faultQueue := rest, faultWrite := t.reporter.faultWrite } }

/-! ### The side path and the line -/

/-- R132, with R18 step 9, R131, R133, R134 and R138: the address rule: a directed entry is accepted by the program it names
alone, a broadcast entry by the broadcast flag, a group entry by the flag that the low 6 bits of its group id index. A directed
entry that names another program is DROPPED_ADDRESS. The tests of an entry follow in their order: a load in flight, the entry check,
the address rule, the flexible filters in index order on the first 64 bytes, read with the program's access key only where a filter
is enabled, and the default action. A head read that fails gives DROPPED_FILTER and the side fault note, and the entries after it are
classified in turn. Three points are the model's: that a load accepted while a head is read gives its entry DROPPED_LOADING (log 28, a
deduction), and that a head read which fails after HALT (log 15, a deduction), or while the program is HELD (log 40, a choice), leaves
its note and ends the take, with the entries after it not classified. -/
def Obligations.AddressRuleAcceptsByTarget : Prop :=
  (∀ (t : FilterTable) (owner : Program) (e : SideEntry),
    (e.target ≤ 15 → (t.accepts owner e = true ↔ e.target = owner.val)) ∧
    (e.target = 0xFF → (t.accepts owner e = true ↔ t.broadcast = true)) ∧
    (e.target = 0xFE → (t.accepts owner e = true ↔ t.groups.getLsbD (e.group % 64) = true)) ∧
    (e.target ≤ 15 → e.target ≠ owner.val → classifyEarly false (some t) owner e = some .droppedAddress)) ∧
  (∀ (t : FilterTable) (owner : Program) (e : SideEntry) (head : List Byte),
    let inRange := 1 ≤ e.length ∧ e.length ≤ 1024 ∧ (e.target ≤ 15 ∨ e.target = 0xFE ∨ e.target = 0xFF)
    let matching := fun (f : Filter) => f.enabled = true ∧ f.compare ≤ e.length ∧
      ∀ i < f.compare, f.mask.getLsbD i = true → byteAt head i = byteAt f.pattern i
    let byDefault : Disposition := if t.defaultCarry = true then .carried else .droppedFilter
    classifyEarly true (some t) owner e = some .droppedLoading ∧ classifyHead true (some t) e head = .droppedLoading ∧
      (¬ inRange → classifyEarly false (some t) owner e = some .droppedAddress) ∧
      (t.accepts owner e = false → classifyEarly false (some t) owner e = some .droppedAddress) ∧
      (inRange → t.accepts owner e = true →
        ((∀ f ∈ t.filters, f.enabled = false) → classifyEarly false (some t) owner e = some byDefault) ∧
        ((∃ f ∈ t.filters, f.enabled = true) → classifyEarly false (some t) owner e = none)) ∧
      (∀ before f after, t.filters = before ++ f :: after → (∀ g ∈ before, ¬ matching g) → matching f →
        (f.action = .carry → classifyHead false (some t) e head = .carried) ∧
        (f.action = .drop → classifyHead false (some t) e head = .droppedFilter) ∧
        (f.action = .cue → classifyHead false (some t) e head = .carriedCue)) ∧
      ((∀ f ∈ t.filters, ¬ matching f) → classifyHead false (some t) e head = byDefault)) ∧
  (∀ (s : State) (p : Program) (rf : RecordFields) (slices : List SliceDesc) (done : List SlotSide) (e : SideEntry)
      (rest : List SideEntry),
    State.classify p rf slices done [] s = s.takenWrite p rf slices done ∧
      (∀ d, classifyEarly s.control.filterLoad.isSome s.side.table p e = some d →
        State.classify p rf slices done (e :: rest) s =
          State.classify p rf slices (done ++ [{ disposition := d, address := e.address, length := e.length }]) rest
            (s.cueMatched p d)) ∧
      (classifyEarly s.control.filterLoad.isSome s.side.table p e = none →
        State.classify p rf slices done (e :: rest) s =
          (s.atPhase (.headRead rf slices done e rest)).issue
            (readRequest .intake (some (s.ctx p).fixed.accessKey) e.address (Nat.min e.length 64))) ∧
      ∀ i, s.controller.intake = some i → i.program = p → i.phase = .headRead rf slices done e rest →
        (i.halted = false → (s.ctx p).state ≠ .held →
          (∀ data,
            let d := classifyHead s.control.filterLoad.isSome s.side.table e data
            s.intakeStep (.done data) =
              State.classify p rf slices (done ++ [{ disposition := d, address := e.address, length := e.length }]) rest
                (s.cueMatched p d)) ∧
          ∀ f,
            s.intakeStep (.failed f) =
              State.classify p rf slices
                (done ++ [{ disposition := .droppedFilter, address := e.address, length := e.length }]) rest
                { s with side := { s.side with faultNote := s.side.faultNote.put p true } }) ∧
        (i.halted = true ∨ (s.ctx p).state = .held → ∀ f,
          s.intakeStep (.failed f) =
            ({ s with side := { s.side with faultNote := s.side.faultNote.put p true } } : State).nextProgram)) ∧
  ∀ (s : State) (p : Program) (rf : RecordFields) (slices : List SliceDesc) (sides : List SlotSide) (i : Intake),
    s.controller.intake = some i →
    s.takenWrite p rf slices sides =
      ({ s with controller := { s.controller with
        intake := some { i with
          phase := .taken
            { takeNumber := (s.ctx p).takeNumber + 1, record := (s.ctx p).nextRecord, sequence := rf.sequence
              kind := kindOf rf.kind, sourceSize := rf.sourceSize, sliceBase := rf.sliceBase, slices := slices
              qMean := qMeanOf slices, complexity := rf.sourceSize * qMeanOf slices, sides := sides, faulted := false }
            rf.link } } } : State).issue
        { agent := .intake, kind := .write, addr := (s.ctx p).nextRecord, length := 1
          key := some (s.ctx p).fixed.accessKey, data := [2] }

/-- R135, R136: CARRIED_CUE sets a clear latch whose level is 0, raises CUE_LATCHED and is noted for the report, and changes nothing
otherwise; a level handed over is kept, and a level of 1 clears the latch of its program too. Nothing else changes. -/
def Obligations.CueLatchFollowsItsLevel : Prop :=
  ∀ (s : State) (p : Program),
    (s.side.latch.look p = false → s.side.level.look p = false →
      s.cueMatched p .carriedCue = { s with
        control := { s.control with
          events := s.control.events ||| 16, line := ((s.control.events ||| 16) &&& s.control.enable) != 0 }
        side := { s.side with latch := s.side.latch.put p true, cueNote := s.side.cueNote.put p true } }) ∧
    (s.side.latch.look p = true ∨ s.side.level.look p = true → s.cueMatched p .carriedCue = s) ∧
    (∀ d, d ≠ .carriedCue → s.cueMatched p d = s) ∧
    s.side.handLevel p true = { s.side with level := s.side.level.put p true, latch := s.side.latch.put p false } ∧
    s.side.handLevel p false = { s.side with level := s.side.level.put p false }

/-- R141, R142: a side link writes the message's cells to the places of its page from place 0, appends their entries to the
owning program's side part, passes the page to the building list, advances the side counter and marks the message built. The side
path then goes on with the next waiting message (R141, R143): its page and its read, a refused read, or no free page. -/
def Obligations.SideLinkAppendsTheMessage : Prop :=
  ∀ (s : State) (b : SideBuild) (data : List Byte), s.side.build = some b → b.data = some data → data.length ≤ 1024 →
    ∃ t u : State, exec .sideLink s = .next u ∧ t.BuildsSide u ∧
      (t.line.building.look b.message.program).side = (s.line.building.look b.message.program).side ++
        (List.range ((data.length + 191) / 192)).map (fun i => Entry.stored b.page i) ∧
      (t.line.building.look b.message.program).picture = (s.line.building.look b.message.program).picture ∧
      (t.line.building.look b.message.program).deferred = (s.line.building.look b.message.program).deferred ∧
      (∀ q, q ≠ b.message.program → t.line.building.look q = s.line.building.look q) ∧
      t.line.buildingPages = s.line.buildingPages ++ [b.page] ∧
      ((List.range ((data.length + 191) / 192)).map fun i => t.store.cells.read (placeIndex b.page i)) =
        (sideCells b.message.program (s.side.counters.look b.message.program) (s.timer.number + 1) b.message.index 0
          (payloads data)).map some ∧
      (∀ place, pageOfPlace place ≠ b.page → t.store.cells.read place = s.store.cells.read place) ∧
      t.side = { s.side with
        build := none
        reserved := s.side.reserved.map fun r => if r.state = .building then { r with state := .built } else r
        counters := s.side.counters.put b.message.program
          (s.side.counters.look b.message.program + BitVec.ofNat 4 ((data.length + 191) / 192)) } ∧
      t = { s with
        store := { s.store with cells := t.store.cells }, side := t.side
        line := { s.line with building := t.line.building, buildingPages := t.line.buildingPages } }

/-- R146, R152, R153, R154, R121, R122: how a request is answered. An INACTIVE line answers and counts nothing. A slot of CPI or
above, or one at which no program is eligible, gets a null cell. Otherwise the program whose next entry has the smallest due
slot, the lowest such program, sends that entry: a produced entry as a hold cell of the current line interval, a stored cell as
written and counted where it was corrected, an uncorrectable one as a null cell with its page marked and STORE_ERROR raised. -/
def Obligations.CellRequestsAreAnsweredInDueOrder : Prop :=
  ∀ (s : State) (check : ReadCheck),
    (s.line.active = false → exec (.cellRequest check) s = .next { s with line := { s.line with out := none } }) ∧
    (s.line.active = true →
      (s.settingsD.cpi ≤ s.line.request ∨
          (∀ p, (s.line.sending.look p).next < (s.line.sending.look p).entries.length →
            s.line.request <
              (s.line.sending.look p).next * s.settingsD.cpi / (s.line.sending.look p).entries.length) →
        exec (.cellRequest check) s = .next { s with line := { s.line with
          request := s.line.request + 1, nulls := s.line.nulls + 1, out := some (nullCell s.timer.number) } }) ∧
      ∀ (p : Program) (entry : Entry),
        let q := s.line.sending.look p
        let due := q.next * s.settingsD.cpi / q.entries.length
        s.line.request < s.settingsD.cpi → q.entries[q.next]? = some entry → due ≤ s.line.request →
        (∀ p', (s.line.sending.look p').next < (s.line.sending.look p').entries.length →
          let due' := (s.line.sending.look p').next * s.settingsD.cpi / (s.line.sending.look p').entries.length
          due' ≤ s.line.request → due < due' ∨ (due = due' ∧ p ≤ p')) →
        (∀ p' count sequence, entry = .produced p' count sequence →
          exec (.cellRequest check) s = .next { s with line := { s.line with
            request := s.line.request + 1, sending := s.line.sending.put p { q with next := q.next + 1 }
            out := some (holdCell p' count sequence s.timer.number) } }) ∧
        ∀ page place cell, entry = .stored page place → s.store.cells.read (placeIndex page place) = some cell →
          (check ≠ .uncorrectable →
            exec (.cellRequest check) s = .next { s with
              store := { s.store with
                correctable := s.store.correctable + (if check = .corrected then 1 else 0) }
              line := { s.line with
                request := s.line.request + 1, sending := s.line.sending.put p { q with next := q.next + 1 }
                out := some cell } }) ∧
          (check = .uncorrectable →
            ∃ t, exec (.cellRequest check) s = .next t ∧ (∀ x, x ∈ t.store.marks ↔ x = page ∨ x ∈ s.store.marks) ∧
              t = { s with
                control := { s.control with
                  events := s.control.events ||| 64, line := ((s.control.events ||| 64) &&& s.control.enable) != 0 }
                store := { s.store with marks := t.store.marks, errorNote := true }
                line := { s.line with
                  request := s.line.request + 1, sending := s.line.sending.put p { q with next := q.next + 1 }
                  nulls := s.line.nulls + 1, out := some (nullCell s.timer.number) } }))

/-- R170, R171, R176, R180, with R181's report record: a STOP in RUNNING puts the device in DRAINING and completes at once; the notice
is given at once where every program is already OFF. The drain ends at a boundary after the notice that leaves the line empty and
finds no fault record waiting. With reporting off the device enters IDLE at once; with reporting on the report of the closed
interval is still written, and the device enters IDLE when its accesses have ended. The three accesses of a report: the consumed index
decides between a skip of a full table, which is counted and raises REPORT_SKIPPED, and the write of the record into slot w with the
held skipped count; a written record clears that count, and a written index raises REPORT_WRITTEN and becomes the device's own. A
failure of any of them stops reporting and raises REPORT_SKIPPED. After the last access the next report follows. Three points are the
model's choices: that no intake follows the drain-ending boundary (log 21), that a failure discards a report that waits its turn (log
45), and that the device's own index stays where its write fails (log 46). -/
def Obligations.StopDrainsTheDevice : Prop :=
  (∀ s : State, s.control.inFlight = none → s.control.device = .running →
    exec .stop s = .next { s with control := { s.control with
      ignored := false, device := .draining, notice := decide (∀ p, (s.ctx p).state = .off), last := some .stop, result := .ok
      events := s.control.events ||| 1, line := ((s.control.events ||| 1) &&& s.control.enable) != 0 } }) ∧
  (∀ (s : State) (lineFirst : Bool), s.timer.running = true → s.control.device = .draining → s.control.notice = true →
    s.control.drainEnding = false → s.reporter.faultQueue = [] →
    (∀ p, (s.line.building.look p).sequence = [] ∧ s.line.holding.look p = []) →
    (s.reporter.isOn = false →
      ∃ t, exec (.boundary { lineFirst := lineFirst, allocationFirst := false }) s = .next t ∧ t.control.device = .idle ∧ t.line.active = false ∧
        t.timer = { s.timer with number := s.timer.number + 1, running := false } ∧ t.controller.intake = none ∧
        t.line.sendingPages = [] ∧ t.line.buildingPages = [] ∧ t.line.holdingPages = []) ∧
    (s.reporter.isOn = true →
      ∃ t, exec (.boundary { lineFirst := lineFirst, allocationFirst := false }) s = .next t ∧
        t.control.device = .draining ∧ t.control.drainEnding = true ∧
        t.timer = { s.timer with number := s.timer.number + 1 })) ∧
  (∀ (s : State) (pre post : List Access) (a : Access) (data : List Byte) (w : ReportWork),
    s.link.accesses = pre ++ a :: post → (∀ x ∈ pre, x.tag ≠ a.tag) → (∀ x ∈ post, x.tag ≠ a.tag) → a.agent = .report →
    s.reporter.work = some w →
    let rest : State := { s with link := { s.link with accesses := pre ++ post } }
    let raised := fun (bit : Byte) => ({ s.control with
      events := s.control.events ||| bit, line := ((s.control.events ||| bit) &&& s.control.enable) != 0 } : Control)
    let next := (s.reporter.writeIndex + 1) % s.settingsD.reportSlots
    let full := next = leNat data 0 4 ∨ s.settingsD.reportSlots ≤ leNat data 0 4
    let skipped : State := { rest with
      control := raised 4, reporter := { s.reporter with skipped := Nat.min (s.reporter.skipped + 1) 65535 } }
    let written : State := { rest with control := raised 2, reporter := { s.reporter with writeIndex := next } }
    let stopped : State := { rest with
      control := raised 4, reporter := { s.reporter with isOn := false, work := none, waiting := [] } }
    let ends := fun (t : State) => t.control.device = .idle ∧ t.timer = { s.timer with running := false } ∧
      t.line.active = false ∧ t.controller.intake = none ∧ t.reporter.work = none
    (a.kind = .read → w.phase = .consumed → a.length = data.length →
      (full →
        (w.figures.endsDrain = false →
          ∃ t, exec (.accessCompletion a.tag data) s = .next t ∧ skipped.ReportFollows t) ∧
        (w.figures.endsDrain = true → s.control.device = .draining →
          ∃ t, exec (.accessCompletion a.tag data) s = .next t ∧ ends t)) ∧
      (¬ full →
        let record : Request :=
          { agent := .report, kind := .write
            addr := s.settingsD.reportBase + BitVec.ofNat 64 (576 * s.reporter.writeIndex), length := 576, key := some 0
            data := reportBytes w.figures s.reporter.skipped }
        (∀ region, checkAccess s.link.regions record = .ok region →
          exec (.accessCompletion a.tag data) s = .next { rest with
            reporter := { s.reporter with work := some { w with phase := .record } }
            link := { s.link with
              accesses := pre ++ post ++
                [{ tag := s.link.nextTag, agent := .report, kind := .write, addr := record.addr, length := 576, key := some 0
                   region := region, data := record.data }]
              nextTag := s.link.nextTag + 1 } }) ∧
        ∀ e, checkAccess s.link.regions record = .error e →
          w.figures.endsDrain = false → (∀ f ∈ s.reporter.waiting, f.endsDrain = false) →
          exec (.accessCompletion a.tag data) s = .next stopped)) ∧
    (a.kind = .write → w.phase = .record →
      exec (.accessCompletion a.tag data) s = .next { rest with
        reporter := { s.reporter with skipped := 0, work := some { w with phase := .index } }
        link := { s.link with
          accesses := pre ++ post ++
            [{ tag := s.link.nextTag, agent := .report, kind := .write, addr := s.settingsD.directory + 0x38, length := 4
               key := none, region := 0xFF, data := leBytes 4 next }]
          nextTag := s.link.nextTag + 1 } }) ∧
    (a.kind = .write → w.phase = .index → w.figures.endsDrain = false →
      ∃ t, exec (.accessCompletion a.tag data) s = .next t ∧ written.ReportFollows t) ∧
    ∀ c, c = .busError a.tag ∨ c = .completionTimeout a.tag →
      (w.figures.endsDrain = false → (∀ f ∈ s.reporter.waiting, f.endsDrain = false) → exec c s = .next stopped) ∧
      (w.figures.endsDrain = true → s.control.device = .draining →
        ∃ t, exec c s = .next t ∧ ends t ∧ t.reporter.isOn = false ∧
          t.reporter.writeIndex = s.reporter.writeIndex)) ∧
  (∀ (f : Figures) (skipped : Nat), f.sections.length ≤ 16 →
    let bytes := reportBytes f skipped
    bytes.length = 576 ∧ leNat bytes 0 4 = f.interval.toNat ∧ leNat bytes 4 4 = Nat.min f.nulls 4294967295 ∧
      leNat bytes 8 2 = f.pool % 65536 ∧ leNat bytes 10 2 = f.reserve % 65536 ∧ leNat bytes 12 2 = f.spare % 65536 ∧
      leNat bytes 14 2 = f.shortfall % 65536 ∧ leNat bytes 16 2 = f.correctable % 65536 ∧
      leNat bytes 18 2 = f.freePages % 65536 ∧ leNat bytes 20 2 = skipped % 65536 ∧
      leNat bytes 22 1 = f.sections.length ∧ byteAt bytes 23 = f.flags ∧
      (∀ i g, f.sections[i]? = some g →
        let at' := 32 + 32 * i
        leNat bytes at' 1 = g.program.val ∧ leNat bytes (at' + 1) 1 = programStateCode g.state ∧
          leNat bytes (at' + 2) 1 = (g.outcome.map outcomeCode).getD 255 ∧ leNat bytes (at' + 3) 1 = g.pass % 256 ∧
          leNat bytes (at' + 4) 2 = g.budget % 65536 ∧ leNat bytes (at' + 6) 2 = g.cells % 65536 ∧
          leNat bytes (at' + 8) 1 = g.meanQ % 256 ∧ leNat bytes (at' + 9) 1 = g.debt % 256 ∧
          leNat bytes (at' + 10) 2 = g.flags.toNat ∧ leNat bytes (at' + 12) 4 = g.delivered % 4294967296) ∧
      ∀ i, 32 + 32 * f.sections.length ≤ i → byteAt bytes i = 0) ∧
  ∀ (s : State) (w : ReportWork), s.reporter.work = some w → w.phase = .index → w.figures.endsDrain = true →
    s.control.device = .draining →
    (s.reportReply (.done [])).control.device = .idle ∧ (s.reportReply (.done [])).timer.running = false ∧
      (s.reportReply (.done [])).line.active = false ∧
      (s.reportReply (.done [])).reporter.writeIndex = (s.reporter.writeIndex + 1) % s.settingsD.reportSlots
end

