-- ==== Sys2Proof/Laws/State.lean ====
section
/-! SUPPORT. What each update of a part of the state leaves in each part, and the laws of the per-program tables. -/

namespace Sys2Proof.Machine

@[simp] theorem State.setPending_pending (s : State) (x : List Instr) : (s.setPending x).pending = x := rfl
@[simp] theorem State.setPending_freeCount (s : State) (x : List Instr) : (s.setPending x).freeCount = s.freeCount := rfl
@[simp] theorem State.setPending_control (s : State) (x : List Instr) : (s.setPending x).control = s.control := rfl
@[simp] theorem State.setPending_timer (s : State) (x : List Instr) : (s.setPending x).timer = s.timer := rfl
@[simp] theorem State.setPending_link (s : State) (x : List Instr) : (s.setPending x).link = s.link := rfl
@[simp] theorem State.setPending_controller (s : State) (x : List Instr) : (s.setPending x).controller = s.controller := rfl
@[simp] theorem State.setPending_allocator (s : State) (x : List Instr) : (s.setPending x).allocator = s.allocator := rfl
@[simp] theorem State.setPending_recoder (s : State) (x : List Instr) : (s.setPending x).recoder = s.recoder := rfl
@[simp] theorem State.setPending_keys (s : State) (x : List Instr) : (s.setPending x).keys = s.keys := rfl
@[simp] theorem State.setPending_side (s : State) (x : List Instr) : (s.setPending x).side = s.side := rfl
@[simp] theorem State.setPending_store (s : State) (x : List Instr) : (s.setPending x).store = s.store := rfl
@[simp] theorem State.setPending_line (s : State) (x : List Instr) : (s.setPending x).line = s.line := rfl
@[simp] theorem State.setPending_reporter (s : State) (x : List Instr) : (s.setPending x).reporter = s.reporter := rfl

@[simp] theorem State.setFreeCount_pending (s : State) (x : Nat) : (s.setFreeCount x).pending = s.pending := rfl
@[simp] theorem State.setFreeCount_freeCount (s : State) (x : Nat) : (s.setFreeCount x).freeCount = x := rfl
@[simp] theorem State.setFreeCount_control (s : State) (x : Nat) : (s.setFreeCount x).control = s.control := rfl
@[simp] theorem State.setFreeCount_timer (s : State) (x : Nat) : (s.setFreeCount x).timer = s.timer := rfl
@[simp] theorem State.setFreeCount_link (s : State) (x : Nat) : (s.setFreeCount x).link = s.link := rfl
@[simp] theorem State.setFreeCount_controller (s : State) (x : Nat) : (s.setFreeCount x).controller = s.controller := rfl
@[simp] theorem State.setFreeCount_allocator (s : State) (x : Nat) : (s.setFreeCount x).allocator = s.allocator := rfl
@[simp] theorem State.setFreeCount_recoder (s : State) (x : Nat) : (s.setFreeCount x).recoder = s.recoder := rfl
@[simp] theorem State.setFreeCount_keys (s : State) (x : Nat) : (s.setFreeCount x).keys = s.keys := rfl
@[simp] theorem State.setFreeCount_side (s : State) (x : Nat) : (s.setFreeCount x).side = s.side := rfl
@[simp] theorem State.setFreeCount_store (s : State) (x : Nat) : (s.setFreeCount x).store = s.store := rfl
@[simp] theorem State.setFreeCount_line (s : State) (x : Nat) : (s.setFreeCount x).line = s.line := rfl
@[simp] theorem State.setFreeCount_reporter (s : State) (x : Nat) : (s.setFreeCount x).reporter = s.reporter := rfl

@[simp] theorem State.setControl_pending (s : State) (x : Control) : (s.setControl x).pending = s.pending := rfl
@[simp] theorem State.setControl_freeCount (s : State) (x : Control) : (s.setControl x).freeCount = s.freeCount := rfl
@[simp] theorem State.setControl_control (s : State) (x : Control) : (s.setControl x).control = x := rfl
@[simp] theorem State.setControl_timer (s : State) (x : Control) : (s.setControl x).timer = s.timer := rfl
@[simp] theorem State.setControl_link (s : State) (x : Control) : (s.setControl x).link = s.link := rfl
@[simp] theorem State.setControl_controller (s : State) (x : Control) : (s.setControl x).controller = s.controller := rfl
@[simp] theorem State.setControl_allocator (s : State) (x : Control) : (s.setControl x).allocator = s.allocator := rfl
@[simp] theorem State.setControl_recoder (s : State) (x : Control) : (s.setControl x).recoder = s.recoder := rfl
@[simp] theorem State.setControl_keys (s : State) (x : Control) : (s.setControl x).keys = s.keys := rfl
@[simp] theorem State.setControl_side (s : State) (x : Control) : (s.setControl x).side = s.side := rfl
@[simp] theorem State.setControl_store (s : State) (x : Control) : (s.setControl x).store = s.store := rfl
@[simp] theorem State.setControl_line (s : State) (x : Control) : (s.setControl x).line = s.line := rfl
@[simp] theorem State.setControl_reporter (s : State) (x : Control) : (s.setControl x).reporter = s.reporter := rfl

@[simp] theorem State.setTimer_pending (s : State) (x : Timer) : (s.setTimer x).pending = s.pending := rfl
@[simp] theorem State.setTimer_freeCount (s : State) (x : Timer) : (s.setTimer x).freeCount = s.freeCount := rfl
@[simp] theorem State.setTimer_control (s : State) (x : Timer) : (s.setTimer x).control = s.control := rfl
@[simp] theorem State.setTimer_timer (s : State) (x : Timer) : (s.setTimer x).timer = x := rfl
@[simp] theorem State.setTimer_link (s : State) (x : Timer) : (s.setTimer x).link = s.link := rfl
@[simp] theorem State.setTimer_controller (s : State) (x : Timer) : (s.setTimer x).controller = s.controller := rfl
@[simp] theorem State.setTimer_allocator (s : State) (x : Timer) : (s.setTimer x).allocator = s.allocator := rfl
@[simp] theorem State.setTimer_recoder (s : State) (x : Timer) : (s.setTimer x).recoder = s.recoder := rfl
@[simp] theorem State.setTimer_keys (s : State) (x : Timer) : (s.setTimer x).keys = s.keys := rfl
@[simp] theorem State.setTimer_side (s : State) (x : Timer) : (s.setTimer x).side = s.side := rfl
@[simp] theorem State.setTimer_store (s : State) (x : Timer) : (s.setTimer x).store = s.store := rfl
@[simp] theorem State.setTimer_line (s : State) (x : Timer) : (s.setTimer x).line = s.line := rfl
@[simp] theorem State.setTimer_reporter (s : State) (x : Timer) : (s.setTimer x).reporter = s.reporter := rfl

@[simp] theorem State.setLink_pending (s : State) (x : Link) : (s.setLink x).pending = s.pending := rfl
@[simp] theorem State.setLink_freeCount (s : State) (x : Link) : (s.setLink x).freeCount = s.freeCount := rfl
@[simp] theorem State.setLink_control (s : State) (x : Link) : (s.setLink x).control = s.control := rfl
@[simp] theorem State.setLink_timer (s : State) (x : Link) : (s.setLink x).timer = s.timer := rfl
@[simp] theorem State.setLink_link (s : State) (x : Link) : (s.setLink x).link = x := rfl
@[simp] theorem State.setLink_controller (s : State) (x : Link) : (s.setLink x).controller = s.controller := rfl
@[simp] theorem State.setLink_allocator (s : State) (x : Link) : (s.setLink x).allocator = s.allocator := rfl
@[simp] theorem State.setLink_recoder (s : State) (x : Link) : (s.setLink x).recoder = s.recoder := rfl
@[simp] theorem State.setLink_keys (s : State) (x : Link) : (s.setLink x).keys = s.keys := rfl
@[simp] theorem State.setLink_side (s : State) (x : Link) : (s.setLink x).side = s.side := rfl
@[simp] theorem State.setLink_store (s : State) (x : Link) : (s.setLink x).store = s.store := rfl
@[simp] theorem State.setLink_line (s : State) (x : Link) : (s.setLink x).line = s.line := rfl
@[simp] theorem State.setLink_reporter (s : State) (x : Link) : (s.setLink x).reporter = s.reporter := rfl

@[simp] theorem State.setController_pending (s : State) (x : Controller) : (s.setController x).pending = s.pending := rfl
@[simp] theorem State.setController_freeCount (s : State) (x : Controller) : (s.setController x).freeCount = s.freeCount := rfl
@[simp] theorem State.setController_control (s : State) (x : Controller) : (s.setController x).control = s.control := rfl
@[simp] theorem State.setController_timer (s : State) (x : Controller) : (s.setController x).timer = s.timer := rfl
@[simp] theorem State.setController_link (s : State) (x : Controller) : (s.setController x).link = s.link := rfl
@[simp] theorem State.setController_controller (s : State) (x : Controller) : (s.setController x).controller = x := rfl
@[simp] theorem State.setController_allocator (s : State) (x : Controller) : (s.setController x).allocator = s.allocator := rfl
@[simp] theorem State.setController_recoder (s : State) (x : Controller) : (s.setController x).recoder = s.recoder := rfl
@[simp] theorem State.setController_keys (s : State) (x : Controller) : (s.setController x).keys = s.keys := rfl
@[simp] theorem State.setController_side (s : State) (x : Controller) : (s.setController x).side = s.side := rfl
@[simp] theorem State.setController_store (s : State) (x : Controller) : (s.setController x).store = s.store := rfl
@[simp] theorem State.setController_line (s : State) (x : Controller) : (s.setController x).line = s.line := rfl
@[simp] theorem State.setController_reporter (s : State) (x : Controller) : (s.setController x).reporter = s.reporter := rfl

@[simp] theorem State.setAllocator_pending (s : State) (x : Allocator) : (s.setAllocator x).pending = s.pending := rfl
@[simp] theorem State.setAllocator_freeCount (s : State) (x : Allocator) : (s.setAllocator x).freeCount = s.freeCount := rfl
@[simp] theorem State.setAllocator_control (s : State) (x : Allocator) : (s.setAllocator x).control = s.control := rfl
@[simp] theorem State.setAllocator_timer (s : State) (x : Allocator) : (s.setAllocator x).timer = s.timer := rfl
@[simp] theorem State.setAllocator_link (s : State) (x : Allocator) : (s.setAllocator x).link = s.link := rfl
@[simp] theorem State.setAllocator_controller (s : State) (x : Allocator) : (s.setAllocator x).controller = s.controller := rfl
@[simp] theorem State.setAllocator_allocator (s : State) (x : Allocator) : (s.setAllocator x).allocator = x := rfl
@[simp] theorem State.setAllocator_recoder (s : State) (x : Allocator) : (s.setAllocator x).recoder = s.recoder := rfl
@[simp] theorem State.setAllocator_keys (s : State) (x : Allocator) : (s.setAllocator x).keys = s.keys := rfl
@[simp] theorem State.setAllocator_side (s : State) (x : Allocator) : (s.setAllocator x).side = s.side := rfl
@[simp] theorem State.setAllocator_store (s : State) (x : Allocator) : (s.setAllocator x).store = s.store := rfl
@[simp] theorem State.setAllocator_line (s : State) (x : Allocator) : (s.setAllocator x).line = s.line := rfl
@[simp] theorem State.setAllocator_reporter (s : State) (x : Allocator) : (s.setAllocator x).reporter = s.reporter := rfl

@[simp] theorem State.setRecoder_pending (s : State) (x : Recoder) : (s.setRecoder x).pending = s.pending := rfl
@[simp] theorem State.setRecoder_freeCount (s : State) (x : Recoder) : (s.setRecoder x).freeCount = s.freeCount := rfl
@[simp] theorem State.setRecoder_control (s : State) (x : Recoder) : (s.setRecoder x).control = s.control := rfl
@[simp] theorem State.setRecoder_timer (s : State) (x : Recoder) : (s.setRecoder x).timer = s.timer := rfl
@[simp] theorem State.setRecoder_link (s : State) (x : Recoder) : (s.setRecoder x).link = s.link := rfl
@[simp] theorem State.setRecoder_controller (s : State) (x : Recoder) : (s.setRecoder x).controller = s.controller := rfl
@[simp] theorem State.setRecoder_allocator (s : State) (x : Recoder) : (s.setRecoder x).allocator = s.allocator := rfl
@[simp] theorem State.setRecoder_recoder (s : State) (x : Recoder) : (s.setRecoder x).recoder = x := rfl
@[simp] theorem State.setRecoder_keys (s : State) (x : Recoder) : (s.setRecoder x).keys = s.keys := rfl
@[simp] theorem State.setRecoder_side (s : State) (x : Recoder) : (s.setRecoder x).side = s.side := rfl
@[simp] theorem State.setRecoder_store (s : State) (x : Recoder) : (s.setRecoder x).store = s.store := rfl
@[simp] theorem State.setRecoder_line (s : State) (x : Recoder) : (s.setRecoder x).line = s.line := rfl
@[simp] theorem State.setRecoder_reporter (s : State) (x : Recoder) : (s.setRecoder x).reporter = s.reporter := rfl

@[simp] theorem State.setKeys_pending (s : State) (x : Keys) : (s.setKeys x).pending = s.pending := rfl
@[simp] theorem State.setKeys_freeCount (s : State) (x : Keys) : (s.setKeys x).freeCount = s.freeCount := rfl
@[simp] theorem State.setKeys_control (s : State) (x : Keys) : (s.setKeys x).control = s.control := rfl
@[simp] theorem State.setKeys_timer (s : State) (x : Keys) : (s.setKeys x).timer = s.timer := rfl
@[simp] theorem State.setKeys_link (s : State) (x : Keys) : (s.setKeys x).link = s.link := rfl
@[simp] theorem State.setKeys_controller (s : State) (x : Keys) : (s.setKeys x).controller = s.controller := rfl
@[simp] theorem State.setKeys_allocator (s : State) (x : Keys) : (s.setKeys x).allocator = s.allocator := rfl
@[simp] theorem State.setKeys_recoder (s : State) (x : Keys) : (s.setKeys x).recoder = s.recoder := rfl
@[simp] theorem State.setKeys_keys (s : State) (x : Keys) : (s.setKeys x).keys = x := rfl
@[simp] theorem State.setKeys_side (s : State) (x : Keys) : (s.setKeys x).side = s.side := rfl
@[simp] theorem State.setKeys_store (s : State) (x : Keys) : (s.setKeys x).store = s.store := rfl
@[simp] theorem State.setKeys_line (s : State) (x : Keys) : (s.setKeys x).line = s.line := rfl
@[simp] theorem State.setKeys_reporter (s : State) (x : Keys) : (s.setKeys x).reporter = s.reporter := rfl

@[simp] theorem State.setSide_pending (s : State) (x : Side) : (s.setSide x).pending = s.pending := rfl
@[simp] theorem State.setSide_freeCount (s : State) (x : Side) : (s.setSide x).freeCount = s.freeCount := rfl
@[simp] theorem State.setSide_control (s : State) (x : Side) : (s.setSide x).control = s.control := rfl
@[simp] theorem State.setSide_timer (s : State) (x : Side) : (s.setSide x).timer = s.timer := rfl
@[simp] theorem State.setSide_link (s : State) (x : Side) : (s.setSide x).link = s.link := rfl
@[simp] theorem State.setSide_controller (s : State) (x : Side) : (s.setSide x).controller = s.controller := rfl
@[simp] theorem State.setSide_allocator (s : State) (x : Side) : (s.setSide x).allocator = s.allocator := rfl
@[simp] theorem State.setSide_recoder (s : State) (x : Side) : (s.setSide x).recoder = s.recoder := rfl
@[simp] theorem State.setSide_keys (s : State) (x : Side) : (s.setSide x).keys = s.keys := rfl
@[simp] theorem State.setSide_side (s : State) (x : Side) : (s.setSide x).side = x := rfl
@[simp] theorem State.setSide_store (s : State) (x : Side) : (s.setSide x).store = s.store := rfl
@[simp] theorem State.setSide_line (s : State) (x : Side) : (s.setSide x).line = s.line := rfl
@[simp] theorem State.setSide_reporter (s : State) (x : Side) : (s.setSide x).reporter = s.reporter := rfl

@[simp] theorem State.setStore_pending (s : State) (x : Store) : (s.setStore x).pending = s.pending := rfl
@[simp] theorem State.setStore_freeCount (s : State) (x : Store) : (s.setStore x).freeCount = s.freeCount := rfl
@[simp] theorem State.setStore_control (s : State) (x : Store) : (s.setStore x).control = s.control := rfl
@[simp] theorem State.setStore_timer (s : State) (x : Store) : (s.setStore x).timer = s.timer := rfl
@[simp] theorem State.setStore_link (s : State) (x : Store) : (s.setStore x).link = s.link := rfl
@[simp] theorem State.setStore_controller (s : State) (x : Store) : (s.setStore x).controller = s.controller := rfl
@[simp] theorem State.setStore_allocator (s : State) (x : Store) : (s.setStore x).allocator = s.allocator := rfl
@[simp] theorem State.setStore_recoder (s : State) (x : Store) : (s.setStore x).recoder = s.recoder := rfl
@[simp] theorem State.setStore_keys (s : State) (x : Store) : (s.setStore x).keys = s.keys := rfl
@[simp] theorem State.setStore_side (s : State) (x : Store) : (s.setStore x).side = s.side := rfl
@[simp] theorem State.setStore_store (s : State) (x : Store) : (s.setStore x).store = x := rfl
@[simp] theorem State.setStore_line (s : State) (x : Store) : (s.setStore x).line = s.line := rfl
@[simp] theorem State.setStore_reporter (s : State) (x : Store) : (s.setStore x).reporter = s.reporter := rfl

@[simp] theorem State.setLine_pending (s : State) (x : Line) : (s.setLine x).pending = s.pending := rfl
@[simp] theorem State.setLine_freeCount (s : State) (x : Line) : (s.setLine x).freeCount = s.freeCount := rfl
@[simp] theorem State.setLine_control (s : State) (x : Line) : (s.setLine x).control = s.control := rfl
@[simp] theorem State.setLine_timer (s : State) (x : Line) : (s.setLine x).timer = s.timer := rfl
@[simp] theorem State.setLine_link (s : State) (x : Line) : (s.setLine x).link = s.link := rfl
@[simp] theorem State.setLine_controller (s : State) (x : Line) : (s.setLine x).controller = s.controller := rfl
@[simp] theorem State.setLine_allocator (s : State) (x : Line) : (s.setLine x).allocator = s.allocator := rfl
@[simp] theorem State.setLine_recoder (s : State) (x : Line) : (s.setLine x).recoder = s.recoder := rfl
@[simp] theorem State.setLine_keys (s : State) (x : Line) : (s.setLine x).keys = s.keys := rfl
@[simp] theorem State.setLine_side (s : State) (x : Line) : (s.setLine x).side = s.side := rfl
@[simp] theorem State.setLine_store (s : State) (x : Line) : (s.setLine x).store = s.store := rfl
@[simp] theorem State.setLine_line (s : State) (x : Line) : (s.setLine x).line = x := rfl
@[simp] theorem State.setLine_reporter (s : State) (x : Line) : (s.setLine x).reporter = s.reporter := rfl

@[simp] theorem State.setReporter_pending (s : State) (x : Reporter) : (s.setReporter x).pending = s.pending := rfl
@[simp] theorem State.setReporter_freeCount (s : State) (x : Reporter) : (s.setReporter x).freeCount = s.freeCount := rfl
@[simp] theorem State.setReporter_control (s : State) (x : Reporter) : (s.setReporter x).control = s.control := rfl
@[simp] theorem State.setReporter_timer (s : State) (x : Reporter) : (s.setReporter x).timer = s.timer := rfl
@[simp] theorem State.setReporter_link (s : State) (x : Reporter) : (s.setReporter x).link = s.link := rfl
@[simp] theorem State.setReporter_controller (s : State) (x : Reporter) : (s.setReporter x).controller = s.controller := rfl
@[simp] theorem State.setReporter_allocator (s : State) (x : Reporter) : (s.setReporter x).allocator = s.allocator := rfl
@[simp] theorem State.setReporter_recoder (s : State) (x : Reporter) : (s.setReporter x).recoder = s.recoder := rfl
@[simp] theorem State.setReporter_keys (s : State) (x : Reporter) : (s.setReporter x).keys = s.keys := rfl
@[simp] theorem State.setReporter_side (s : State) (x : Reporter) : (s.setReporter x).side = s.side := rfl
@[simp] theorem State.setReporter_store (s : State) (x : Reporter) : (s.setReporter x).store = s.store := rfl
@[simp] theorem State.setReporter_line (s : State) (x : Reporter) : (s.setReporter x).line = s.line := rfl
@[simp] theorem State.setReporter_reporter (s : State) (x : Reporter) : (s.setReporter x).reporter = x := rfl

@[simp] theorem PerProgram.look_put_same {α : Type} (v : PerProgram α) (p : Program) (x : α) :
    (v.put p x).look p = x := by
  simp [PerProgram.look, PerProgram.put]

theorem PerProgram.look_put_ne {α : Type} (v : PerProgram α) {p q : Program} (h : q ≠ p) (x : α) :
    (v.put p x).look q = v.look q := by
  have hv : p.val ≠ q.val := fun e => h (Fin.ext e.symm)
  simp [PerProgram.look, PerProgram.put, hv]

@[simp] theorem PerProgram.look_modify_same {α : Type} (v : PerProgram α) (p : Program) (f : α → α) :
    (v.modify p f).look p = f (v.look p) := by
  simp [PerProgram.modify]

theorem PerProgram.look_modify_ne {α : Type} (v : PerProgram α) {p q : Program} (h : q ≠ p) (f : α → α) :
    (v.modify p f).look q = v.look q := PerProgram.look_put_ne v h _

@[simp] theorem PerProgram.look_tabulate {α : Type} (f : Program → α) (p : Program) :
    (PerProgram.tabulate f).look p = f p := by
  fin_cases p <;> rfl

@[simp] theorem PerProgram.look_fill {α : Type} (x : α) (p : Program) : (PerProgram.fill x).look p = x := by
  simp [PerProgram.look, PerProgram.fill]

@[simp] theorem State.ctx_modCtx_same (s : State) (p : Program) (f : ProgramCtx → ProgramCtx) :
    (s.modCtx p f).ctx p = f (s.ctx p) := by
  simp [State.ctx, State.modCtx]

theorem State.ctx_modCtx_ne (s : State) {p q : Program} (h : q ≠ p) (f : ProgramCtx → ProgramCtx) :
    (s.modCtx p f).ctx q = s.ctx q := by
  simp [State.ctx, State.modCtx, PerProgram.look_modify_ne _ h]

end Sys2Proof.Machine
end

