-- ==== Sys2Proof/Laws/Cells.lean ====
section
/-! SUPPORT. The laws of the cell store: its written places keep their canonical form, a place reads what was last written
to it, and pages are requested and given back as R117, R119 and R123 say. -/

namespace Sys2Proof.Machine

/-- The canonical form as two facts. -/
theorem CellMemory.wf_iff (m : CellMemory) :
    m.wf = true ↔ (m.map Prod.fst).Pairwise (· < ·) ∧ ∀ e ∈ m, e.2.length = Config.cellBytes := by
  simp [CellMemory.wf]

/-- The places after one write are the places before it and the one written. -/
theorem CellMemory.mem_write {m : CellMemory} {i : Nat} {c : List Byte} {e : Nat × List Byte}
    (h : e ∈ CellMemory.write i c m) : e = (i, c) ∨ e ∈ m := by
  induction m with
  | nil => simpa [CellMemory.write] using h
  | cons x rest ih =>
    obtain ⟨j, d⟩ := x
    rw [CellMemory.write] at h
    split at h
    · simpa using h
    · split at h
      · simp only [List.mem_cons] at h ⊢; tauto
      · simp only [List.mem_cons] at h ⊢
        rcases h with h | h
        · tauto
        · rcases ih h with h | h <;> tauto

/-- A write of one cell keeps the canonical form. -/
theorem CellMemory.wf_write {m : CellMemory} {i : Nat} {c : List Byte} (h : m.wf = true)
    (hc : c.length = Config.cellBytes) : (CellMemory.write i c m).wf = true := by
  rw [CellMemory.wf_iff] at h ⊢
  refine ⟨?_, fun e he => ?_⟩
  · obtain ⟨hp, -⟩ := h
    induction m with
    | nil => simp [CellMemory.write]
    | cons x rest ih =>
      obtain ⟨j, d⟩ := x
      simp only [List.map_cons, List.pairwise_cons] at hp
      rw [CellMemory.write]
      split
      · rename_i hij
        simp only [List.map_cons, List.pairwise_cons]
        refine ⟨fun b hb => ?_, hp⟩
        rcases List.mem_cons.1 hb with rfl | hb
        · exact hij
        · exact lt_trans hij (hp.1 b hb)
      · split
        · rename_i hij; subst hij; simpa using hp
        · rename_i h1 h2
          simp only [List.map_cons, List.pairwise_cons]
          refine ⟨fun b hb => ?_, ih hp.2⟩
          obtain ⟨e, he, rfl⟩ := List.mem_map.1 hb
          rcases CellMemory.mem_write he with rfl | he
          · simp; omega
          · exact hp.1 _ (List.mem_map_of_mem he)
  · rcases CellMemory.mem_write he with rfl | he
    · exact hc
    · exact h.2 e he

/-- The writes of many cells keep the canonical form. -/
theorem CellMemory.wf_writeAll {m : CellMemory} {cells : List (Nat × List Byte)} (h : m.wf = true)
    (hc : ∀ e ∈ cells, e.2.length = Config.cellBytes) : (m.writeAll cells).wf = true := by
  induction cells generalizing m with
  | nil => exact h
  | cons x rest ih =>
    exact ih (CellMemory.wf_write h (hc x (by simp))) fun e he => hc e (by simp [he])

/-- Clearing pages keeps the canonical form. -/
theorem CellMemory.wf_clearPages {m : CellMemory} {pages : List Nat} (h : m.wf = true) :
    (m.clearPages pages).wf = true := by
  rw [CellMemory.wf_iff] at h ⊢
  refine ⟨?_, fun e he => h.2 e (List.mem_of_mem_filter he)⟩
  exact h.1.sublist (List.Sublist.map _ List.filter_sublist)

/-- So does keeping the places of some pages alone. -/
theorem CellMemory.wf_ofPages {m : CellMemory} {pages : List Nat} (h : m.wf = true) : (m.ofPages pages).wf = true := by
  rw [CellMemory.wf_iff] at h ⊢
  refine ⟨?_, fun e he => h.2 e (List.mem_of_mem_filter he)⟩
  exact h.1.sublist (List.Sublist.map _ List.filter_sublist)

/-- The store after power-on has the canonical form. -/
theorem Store.reset_wf : Store.reset.cells.wf = true := rfl

/-- A place reads what was written to it last. -/
@[simp] theorem CellMemory.read_write_same (m : CellMemory) (i : Nat) (c : List Byte) :
    CellMemory.read (CellMemory.write i c m) i = some c := by
  induction m with
  | nil => simp [CellMemory.write, CellMemory.read]
  | cons x rest ih =>
    obtain ⟨j, d⟩ := x
    rw [CellMemory.write]
    split
    · simp [CellMemory.read]
    · split
      · simp [CellMemory.read]
      · rename_i h
        simp [CellMemory.read, Ne.symm h, ih]

/-- A write leaves every other place. -/
theorem CellMemory.read_write_ne (m : CellMemory) {i j : Nat} (h : j ≠ i) (c : List Byte) :
    CellMemory.read (CellMemory.write i c m) j = CellMemory.read m j := by
  induction m with
  | nil => simp [CellMemory.write, CellMemory.read, Ne.symm h]
  | cons x rest ih =>
    obtain ⟨k, d⟩ := x
    rw [CellMemory.write]
    split
    · simp [CellMemory.read, Ne.symm h]
    · split
      · rename_i hk
        subst hk
        simp [CellMemory.read, Ne.symm h]
      · simp [CellMemory.read, ih]

/-- A place outside the cleared pages reads as before, one inside is unwritten (R119). -/
theorem CellMemory.read_clearPages (m : CellMemory) (pages : List Nat) (i : Nat) :
    CellMemory.read (m.clearPages pages) i = if pageOfPlace i ∈ pages then none else CellMemory.read m i := by
  induction m with
  | nil => simp [CellMemory.clearPages, CellMemory.read]
  | cons x rest ih =>
    obtain ⟨j, d⟩ := x
    by_cases hj : pageOfPlace j ∈ pages
    · have hne : j = i → pageOfPlace i ∈ pages := by rintro rfl; exact hj
      have : CellMemory.clearPages ((j, d) :: rest) pages = CellMemory.clearPages rest pages := by
        simp [CellMemory.clearPages, hj]
      rw [this, ih, CellMemory.read]
      split
      · rfl
      · rw [if_neg (fun h => absurd (hne h) ‹_›)]
    · have : CellMemory.clearPages ((j, d) :: rest) pages = (j, d) :: CellMemory.clearPages rest pages := by
        simp [CellMemory.clearPages, hj]
      rw [this, CellMemory.read, CellMemory.read, ih]
      by_cases hji : j = i
      · subst hji; simp [hj]
      · simp [hji]

/-- A place below every listed one is not listed. -/
theorem CellMemory.read_none_of_lt {m : CellMemory} {i : Nat} (h : ∀ e ∈ m, i < e.1) : CellMemory.read m i = none := by
  induction m with
  | nil => rfl
  | cons x rest ih =>
    obtain ⟨j, d⟩ := x
    have hj : j ≠ i := by have := h (j, d) (by simp); simp only at this; omega
    rw [CellMemory.read, if_neg hj]
    exact ih fun e he => h e (by simp [he])

/-- The writes of rising places: each reads what its write gives, and every other place as before. -/
theorem CellMemory.read_writeAll {m cells : CellMemory} (h : (cells.map Prod.fst).Pairwise (· < ·)) (i : Nat) :
    CellMemory.read (m.writeAll cells) i = (CellMemory.read cells i).or (CellMemory.read m i) := by
  induction cells generalizing m with
  | nil => rfl
  | cons x rest ih =>
    obtain ⟨j, d⟩ := x
    simp only [List.map_cons, List.pairwise_cons] at h
    show CellMemory.read (CellMemory.writeAll (CellMemory.write j d m) rest) i = _
    rw [ih h.2, CellMemory.read]
    by_cases hj : j = i
    · subst hj
      have : CellMemory.read rest j = none :=
        CellMemory.read_none_of_lt fun e he => h.1 _ (List.mem_map_of_mem he)
      simp [this]
    · rw [CellMemory.read_write_ne _ (Ne.symm hj), if_neg hj]

/-- The places of some pages read as they are, the others are not listed. -/
theorem CellMemory.read_ofPages (m : CellMemory) (pages : List Nat) (i : Nat) :
    CellMemory.read (m.ofPages pages) i = if pageOfPlace i ∈ pages then CellMemory.read m i else none := by
  induction m with
  | nil => simp [CellMemory.ofPages, CellMemory.read]
  | cons x rest ih =>
    obtain ⟨j, d⟩ := x
    by_cases hj : pageOfPlace j ∈ pages
    · have : CellMemory.ofPages ((j, d) :: rest) pages = (j, d) :: CellMemory.ofPages rest pages := by
        simp [CellMemory.ofPages, hj]
      rw [this, CellMemory.read, CellMemory.read, ih]
      by_cases hji : j = i
      · subst hji; simp [hj]
      · simp [hji]
    · have : CellMemory.ofPages ((j, d) :: rest) pages = CellMemory.ofPages rest pages := by
        simp [CellMemory.ofPages, hj]
      rw [this, ih, CellMemory.read]
      by_cases hji : j = i
      · subst hji; simp [hj]
      · simp [hji]

/-- What a place holds: the cell written to it, and where none is, what is left in it (R128). -/
theorem Store.read_contents {st : Store} (h : st.cells.wf = true) (i : Nat) :
    CellMemory.read st.contents i = (CellMemory.read st.cells i).or (CellMemory.read st.residue i) :=
  CellMemory.read_writeAll ((CellMemory.wf_iff _).1 h).1 i

/-- Clearing written places changes the contents of none (R119, R128). -/
theorem Store.read_contents_clear {st : Store} (h : st.cells.wf = true) (pages : List Nat) (i : Nat) :
    CellMemory.read (st.clear pages).contents i = CellMemory.read st.contents i := by
  rw [Store.read_contents (st := st.clear pages) (CellMemory.wf_clearPages h), Store.read_contents h]
  show (CellMemory.read (st.cells.clearPages pages) i).or
    (CellMemory.read (st.residue.writeAll (st.cells.ofPages pages)) i) = _
  rw [CellMemory.read_writeAll ((CellMemory.wf_iff _).1 (CellMemory.wf_ofPages h)).1, CellMemory.read_clearPages
    , CellMemory.read_ofPages]
  split <;> simp

/-- Clearing keeps both canonical forms. -/
theorem Store.clear_wf {st : Store} (pages : List Nat) (h : st.cells.wf = true ∧ st.residue.wf = true) :
    (st.clear pages).cells.wf = true ∧ (st.clear pages).residue.wf = true :=
  ⟨CellMemory.wf_clearPages h.1
    , CellMemory.wf_writeAll h.2 ((CellMemory.wf_iff _).1 (CellMemory.wf_ofPages (pages := pages) h.1)).2⟩

/-- The contents of a store have the canonical form. -/
theorem Store.contents_wf {st : Store} (h : st.cells.wf = true ∧ st.residue.wf = true) : st.contents.wf = true :=
  CellMemory.wf_writeAll h.2 ((CellMemory.wf_iff _).1 h.1).2

/-! ### Pages -/

/-- The pages of a sorted insertion. -/
@[simp] theorem mem_insertPage {n p : Nat} {l : List Nat} : p ∈ insertPage n l ↔ p = n ∨ p ∈ l := by
  induction l with
  | nil => simp [insertPage]
  | cons m rest ih =>
    rw [insertPage]
    split
    · simp
    · split
      · rename_i h; subst h; simp
      · simp only [List.mem_cons, ih]; tauto

/-- The pages of a sorted list. -/
@[simp] theorem mem_sortPages {p : Nat} {l : List Nat} : p ∈ sortPages l ↔ p ∈ l := by
  induction l with
  | nil => simp [sortPages]
  | cons m rest ih => simp only [sortPages, List.foldr_cons, mem_insertPage, List.mem_cons]; rw [← ih]; rfl

/-- An insertion into a rising list is rising. -/
theorem insertPage_rising {n : Nat} {l : List Nat} (h : l.Pairwise (· < ·)) : (insertPage n l).Pairwise (· < ·) := by
  induction l with
  | nil => simp [insertPage]
  | cons m rest ih =>
    rw [List.pairwise_cons] at h
    rw [insertPage]
    split
    · rename_i hnm
      refine List.pairwise_cons.2 ⟨fun b hb => ?_, List.pairwise_cons.2 h⟩
      rcases List.mem_cons.1 hb with rfl | hb
      · exact hnm
      · exact lt_trans hnm (h.1 b hb)
    · split
      · exact List.pairwise_cons.2 h
      · refine List.pairwise_cons.2 ⟨fun b hb => ?_, ih h.2⟩
        rcases mem_insertPage.1 hb with rfl | hb
        · omega
        · exact h.1 b hb

/-- A returned list of pages is in ascending order, each page once (R123). -/
theorem sortPages_rising (l : List Nat) : (sortPages l).Pairwise (· < ·) := by
  induction l with
  | nil => simp [sortPages]
  | cons m rest ih => exact insertPage_rising ih

/-- R117: a request that is served takes its pages from the head of the free list and changes nothing else. -/
theorem Store.request_some {st st' : Store} {n : Nat} {pages : List Nat} (h : st.request n = some (pages, st')) :
    pages.length = n ∧ st.free = pages ++ st'.free ∧ st' = { st with free := st.free.drop n } := by
  unfold Store.request at h
  split at h
  · rename_i hn
    obtain ⟨rfl, rfl⟩ : st.free.take n = pages ∧ { st with free := st.free.drop n } = st' := by simpa using h
    exact ⟨by simpa using hn, by simp, rfl⟩
  · cases h

/-- R117: a request is refused exactly where the free list is too short. -/
theorem Store.request_none {st : Store} {n : Nat} : st.request n = none ↔ st.free.length < n := by
  unfold Store.request
  split <;> simp <;> omega

/-- What a return of pages can do (R119, R123): the free list grows at its tail by the pages that carry no mark, the others
are retired, their marks go, and their places are cleared. -/
theorem Store.giveBack_free (st : Store) (pages : List Nat) :
    (st.giveBack pages).free = st.free ++ (sortPages pages).filter fun p => !st.marks.contains p := rfl

theorem Store.mem_giveBack_retired (st : Store) (pages : List Nat) (p : Nat) :
    p ∈ (st.giveBack pages).retired ↔ p ∈ st.retired ∨ p ∈ pages ∧ p ∈ st.marks := by
  have key : ∀ (l r : List Nat), p ∈ l.foldl (fun r q => insertPage q r) r ↔ p ∈ r ∨ p ∈ l := by
    intro l
    induction l with
    | nil => simp
    | cons x rest ih => intro r; simp only [List.foldl_cons, ih, mem_insertPage, List.mem_cons]; tauto
  simp [Store.giveBack, key]

theorem Store.mem_giveBack_marks (st : Store) (pages : List Nat) (p : Nat) :
    p ∈ (st.giveBack pages).marks ↔ p ∈ st.marks ∧ p ∉ pages := by
  simp [Store.giveBack]

theorem Store.giveBack_read (st : Store) (pages : List Nat) (i : Nat) :
    CellMemory.read (st.giveBack pages).cells i =
      if pageOfPlace i ∈ pages then none else CellMemory.read st.cells i := by
  simp [Store.giveBack, Store.clear, CellMemory.read_clearPages]

/-- A return of pages keeps the canonical forms. -/
theorem Store.giveBack_wf {st : Store} (pages : List Nat) (h : st.cells.wf = true ∧ st.residue.wf = true) :
    (st.giveBack pages).cells.wf = true ∧ (st.giveBack pages).residue.wf = true := st.clear_wf (sortPages pages) h

@[simp] theorem Store.giveBack_correctable (st : Store) (pages : List Nat) :
    (st.giveBack pages).correctable = st.correctable := rfl
@[simp] theorem Store.giveBack_errorNote (st : Store) (pages : List Nat) :
    (st.giveBack pages).errorNote = st.errorNote := rfl
@[simp] theorem Store.giveBack_test (st : Store) (pages : List Nat) : (st.giveBack pages).test = st.test := rfl

theorem State.returnPages_eq (s : State) (pages : List Nat) : s.returnPages pages = s.setStore (s.store.giveBack pages) := rfl

end Sys2Proof.Machine
end

