-- ==== Sys2Proof/Laws/Link.lean ====
section
/-! SUPPORT. What raising an event, completing a command, checking an access, issuing one and dropping some can do. -/

namespace Sys2Proof.Machine

/-! ### Events and completions -/

theorem State.raise_eq (s : State) (f : EventFlag) :
    s.raise f = s.setControl (s.control.drive (s.control.events ||| f.bit) s.control.enable) := rfl

@[simp] theorem Control.drive_events (c : Control) (e n : Byte) : (c.drive e n).events = e := rfl
@[simp] theorem Control.drive_enable (c : Control) (e n : Byte) : (c.drive e n).enable = n := rfl
@[simp] theorem Control.drive_line (c : Control) (e n : Byte) : (c.drive e n).line = ((e &&& n) != 0) := rfl
@[simp] theorem Control.drive_device (c : Control) (e n : Byte) : (c.drive e n).device = c.device := rfl
@[simp] theorem Control.drive_inFlight (c : Control) (e n : Byte) : (c.drive e n).inFlight = c.inFlight := rfl
@[simp] theorem Control.drive_last (c : Control) (e n : Byte) : (c.drive e n).last = c.last := rfl
@[simp] theorem Control.drive_result (c : Control) (e n : Byte) : (c.drive e n).result = c.result := rfl
@[simp] theorem Control.drive_ignored (c : Control) (e n : Byte) : (c.drive e n).ignored = c.ignored := rfl
@[simp] theorem Control.drive_directory (c : Control) (e n : Byte) : (c.drive e n).directory = c.directory := rfl
@[simp] theorem Control.drive_settings (c : Control) (e n : Byte) : (c.drive e n).settings = c.settings := rfl

@[simp] theorem State.raise_pending (s : State) (f : EventFlag) : (s.raise f).pending = s.pending := rfl
@[simp] theorem State.raise_freeCount (s : State) (f : EventFlag) : (s.raise f).freeCount = s.freeCount := rfl
@[simp] theorem State.raise_timer (s : State) (f : EventFlag) : (s.raise f).timer = s.timer := rfl
@[simp] theorem State.raise_link (s : State) (f : EventFlag) : (s.raise f).link = s.link := rfl
@[simp] theorem State.raise_controller (s : State) (f : EventFlag) : (s.raise f).controller = s.controller := rfl
@[simp] theorem State.raise_allocator (s : State) (f : EventFlag) : (s.raise f).allocator = s.allocator := rfl
@[simp] theorem State.raise_recoder (s : State) (f : EventFlag) : (s.raise f).recoder = s.recoder := rfl
@[simp] theorem State.raise_keys (s : State) (f : EventFlag) : (s.raise f).keys = s.keys := rfl
@[simp] theorem State.raise_side (s : State) (f : EventFlag) : (s.raise f).side = s.side := rfl
@[simp] theorem State.raise_store (s : State) (f : EventFlag) : (s.raise f).store = s.store := rfl
@[simp] theorem State.raise_line (s : State) (f : EventFlag) : (s.raise f).line = s.line := rfl
@[simp] theorem State.raise_reporter (s : State) (f : EventFlag) : (s.raise f).reporter = s.reporter := rfl
@[simp] theorem State.raise_events (s : State) (f : EventFlag) :
    (s.raise f).control.events = s.control.events ||| f.bit := rfl

/-- A completion changes the control unit alone: last command, result, no command in flight, COMMAND_DONE (R172). -/
theorem State.complete_eq (s : State) (last : Option CommandName) (result : CmdResult) :
    s.complete last result =
      s.setControl
        (({ s.control with last := last, result := result, inFlight := none } : Control).drive
          (s.control.events ||| EventFlag.commandDone.bit) s.control.enable) := rfl

/-! ### The access check -/

/-- R160 step 1: what the search of the table finds: an entry that contains the range, none before it does. -/
theorem findRegion_some {addr : Long} {length : Nat} : ∀ {table : List Region} {i j : Nat} {r : Region},
    findRegion addr length i table = some (j, r) →
      ∃ k, j = i + k ∧ table[k]? = some r ∧ r.contains addr length = true ∧
        ∀ m < k, ∀ q, table[m]? = some q → q.contains addr length = false
  | [], _, _, _, h => by simp [findRegion] at h
  | x :: rest, i, j, r, h => by
    rw [findRegion] at h
    split at h
    · rename_i hx
      obtain ⟨rfl, rfl⟩ : i = j ∧ x = r := by simpa using h
      exact ⟨0, rfl, rfl, hx, by omega⟩
    · rename_i hx
      obtain ⟨k, hj, hr, hc, hm⟩ := findRegion_some h
      refine ⟨k + 1, by omega, by simpa using hr, hc, ?_⟩
      intro m hmk q hq
      cases m with
      | zero => simp_all
      | succ m => exact hm m (by omega) q (by simpa using hq)

/-- R160 step 1: the search finds nothing exactly where no entry contains the range. -/
theorem findRegion_none {addr : Long} {length : Nat} : ∀ {table : List Region} {i : Nat},
    findRegion addr length i table = none ↔ ∀ r ∈ table, r.contains addr length = false
  | [], i => by simp [findRegion]
  | x :: rest, i => by
    rw [findRegion]
    split
    · rename_i hx; simp [hx]
    · rename_i hx; simp [findRegion_none (table := rest), hx]

/-! ### Issuing and dropping -/

/-- What issuing an access can do (R160): it is added to those in flight, or refused with nothing changed. -/
theorem State.issue_cases (s : State) (r : Request) :
    (∃ region, checkAccess s.link.regions r = .ok region ∧
        s.issue r = (s.setLink { s.link with accesses := s.link.accesses ++ [r.access s.link.nextTag region]
                                             nextTag := s.link.nextTag + 1 }, none)) ∨
      ∃ result region, checkAccess s.link.regions r = .error (result, region) ∧
        s.issue r = (s, some (.failed (r.failure result region))) := by
  unfold State.issue
  split
  · rename_i region h; exact .inl ⟨region, h, rfl⟩
  · rename_i result region h; exact .inr ⟨result, region, h, rfl⟩

/-- An admitted access is added to those in flight (R160). -/
theorem State.issue_of_ok {s : State} {r : Request} {region : Byte} (h : checkAccess s.link.regions r = .ok region) :
    s.issue r =
      (s.setLink { s.link with accesses := s.link.accesses ++ [r.access s.link.nextTag region]
                               nextTag := s.link.nextTag + 1 }, none) := by
  simp [State.issue, h]

/-- A refused access leaves the state as it was, and the requester is told (R160). -/
theorem State.issue_of_error {s : State} {r : Request} {result : AccessResult} {region : Byte}
    (h : checkAccess s.link.regions r = .error (result, region)) :
    s.issue r = (s, some (.failed (r.failure result region))) := by
  simp [State.issue, h]

/-- An unchecked access is always issued (R159). -/
theorem State.issue_unchecked (s : State) (r : Request) (h : r.key = none) :
    s.issue r = (s.setLink { s.link with accesses := s.link.accesses ++ [r.access s.link.nextTag noIndex]
                                         nextTag := s.link.nextTag + 1 }, none) := by
  have : checkAccess s.link.regions r = .ok noIndex := by simp [checkAccess, h]
  simp [State.issue, this]

/-- Issuing an access touches the link alone. -/
theorem State.issue_setLink (s : State) (r : Request) : ∃ l, (s.issue r).1 = s.setLink l := by
  rcases s.issue_cases r with ⟨_, _, h⟩ | ⟨_, _, _, h⟩
  · exact ⟨_, by rw [h]⟩
  · exact ⟨s.link, by rw [h]; rfl⟩

@[simp] theorem State.issue_pending (s : State) (r : Request) : (s.issue r).1.pending = s.pending := by
  obtain ⟨l, h⟩ := s.issue_setLink r; rw [h]; rfl
@[simp] theorem State.issue_freeCount (s : State) (r : Request) : (s.issue r).1.freeCount = s.freeCount := by
  obtain ⟨l, h⟩ := s.issue_setLink r; rw [h]; rfl
@[simp] theorem State.issue_control (s : State) (r : Request) : (s.issue r).1.control = s.control := by
  obtain ⟨l, h⟩ := s.issue_setLink r; rw [h]; rfl
@[simp] theorem State.issue_timer (s : State) (r : Request) : (s.issue r).1.timer = s.timer := by
  obtain ⟨l, h⟩ := s.issue_setLink r; rw [h]; rfl
@[simp] theorem State.issue_controller (s : State) (r : Request) : (s.issue r).1.controller = s.controller := by
  obtain ⟨l, h⟩ := s.issue_setLink r; rw [h]; rfl
@[simp] theorem State.issue_allocator (s : State) (r : Request) : (s.issue r).1.allocator = s.allocator := by
  obtain ⟨l, h⟩ := s.issue_setLink r; rw [h]; rfl
@[simp] theorem State.issue_recoder (s : State) (r : Request) : (s.issue r).1.recoder = s.recoder := by
  obtain ⟨l, h⟩ := s.issue_setLink r; rw [h]; rfl
@[simp] theorem State.issue_keys (s : State) (r : Request) : (s.issue r).1.keys = s.keys := by
  obtain ⟨l, h⟩ := s.issue_setLink r; rw [h]; rfl
@[simp] theorem State.issue_side (s : State) (r : Request) : (s.issue r).1.side = s.side := by
  obtain ⟨l, h⟩ := s.issue_setLink r; rw [h]; rfl
@[simp] theorem State.issue_store (s : State) (r : Request) : (s.issue r).1.store = s.store := by
  obtain ⟨l, h⟩ := s.issue_setLink r; rw [h]; rfl
@[simp] theorem State.issue_line (s : State) (r : Request) : (s.issue r).1.line = s.line := by
  obtain ⟨l, h⟩ := s.issue_setLink r; rw [h]; rfl
@[simp] theorem State.issue_reporter (s : State) (r : Request) : (s.issue r).1.reporter = s.reporter := by
  obtain ⟨l, h⟩ := s.issue_setLink r; rw [h]; rfl
@[simp] theorem State.issue_regions (s : State) (r : Request) : (s.issue r).1.link.regions = s.link.regions := by
  rcases s.issue_cases r with ⟨_, _, h⟩ | ⟨_, _, _, h⟩ <;> rw [h]
  rfl

/-- Dropping accesses touches the list of those in flight alone. -/
theorem State.dropAccesses_eq (s : State) (p : Agent → Bool) :
    s.dropAccesses p = s.setLink { s.link with accesses := s.link.accesses.filter fun a => !p a.agent } := rfl

end Sys2Proof.Machine
end

