-- ==== Sys2Proof/Laws/Frames.lean ====
section
/-! SUPPORT. What the work of the program controller may change: intakes, abandonments, status parts, finishes and faults touch
the controller, the delivered lists, the continuity counters, the parity records, the side path's latches and notes, the fault
record queue and the accesses in flight, and nothing else. -/

namespace Sys2Proof.Machine

/-! ### Per-program tables -/

theorem PerProgram.look_put {α : Type} (v : PerProgram α) (p q : Program) (x : α) :
    (v.put p x).look q = if p = q then x else v.look q := by
  unfold PerProgram.look PerProgram.put
  show (v.set p.val x p.isLt)[q.val] = _
  rw [Vector.getElem_set]
  by_cases h : p = q
  · subst h; simp
  · have : p.val ≠ q.val := fun e => h (Fin.ext e)
    simp [this, h]

theorem PerProgram.look_modify {α : Type} (v : PerProgram α) (p q : Program) (f : α → α) :
    (v.modify p f).look q = if p = q then f (v.look q) else v.look q := by
  unfold PerProgram.modify
  rw [PerProgram.look_put]
  split
  · rename_i h; rw [h]
  · rfl

theorem State.ctx_modCtx (s : State) (p q : Program) (f : ProgramCtx → ProgramCtx) :
    (s.modCtx p f).ctx q = if p = q then f (s.ctx q) else s.ctx q :=
  PerProgram.look_modify s.controller.programs p q f

/-- `t` comes from `s` by work of the program controller. -/
structure RunFrame (s t : State) : Prop where
  pending : t.pending = s.pending
  freeCount : t.freeCount = s.freeCount
  timer : t.timer = s.timer
  control :
    t.control = { s.control with notice := t.control.notice, events := t.control.events, line := t.control.line }
  driven : s.LineDriven → t.LineDriven
  regions : t.link.regions = s.link.regions
  reports : t.controller.reports = s.controller.reports
  statusSeen : t.controller.statusSeen = s.controller.statusSeen
  allocator : t.allocator = { s.allocator with delivered := t.allocator.delivered }
  recoder : t.recoder = { s.recoder with counters := t.recoder.counters }
  keys : t.keys = { s.keys with records := t.keys.records }
  sound : s.KeysSound → t.KeysSound
  side :
    t.side = { s.side with
      latch := t.side.latch, level := t.side.level, counters := t.side.counters, faultNote := t.side.faultNote
      cueNote := t.side.cueNote }
  store : t.store = s.store
  line : t.line = s.line
  reporter :
    t.reporter = { s.reporter with faultQueue := t.reporter.faultQueue, faultWrite := t.reporter.faultWrite }
  queue : s.FaultQueueSound → t.FaultQueueSound

theorem RunFrame.refl (s : State) : RunFrame s s where
  pending := rfl
  freeCount := rfl
  timer := rfl
  control := rfl
  driven h := h
  regions := rfl
  reports := rfl
  statusSeen := rfl
  allocator := rfl
  recoder := rfl
  keys := rfl
  sound h := h
  side := rfl
  store := rfl
  line := rfl
  reporter := rfl
  queue h := h

theorem RunFrame.trans {r s t : State} (a : RunFrame r s) (b : RunFrame s t) : RunFrame r t where
  pending := b.pending.trans a.pending
  freeCount := b.freeCount.trans a.freeCount
  timer := b.timer.trans a.timer
  control := by have h := b.control; rw [a.control] at h; exact h
  driven h := b.driven (a.driven h)
  regions := b.regions.trans a.regions
  reports := b.reports.trans a.reports
  statusSeen := b.statusSeen.trans a.statusSeen
  allocator := by have h := b.allocator; rw [a.allocator] at h; exact h
  recoder := by have h := b.recoder; rw [a.recoder] at h; exact h
  keys := by have h := b.keys; rw [a.keys] at h; exact h
  sound h := b.sound (a.sound h)
  side := by have h := b.side; rw [a.side] at h; exact h
  store := b.store.trans a.store
  line := b.line.trans a.line
  reporter := by have h := b.reporter; rw [a.reporter] at h; exact h
  queue h := b.queue (a.queue h)

/-! ### The controller's own updates -/

variable {r s t : State}

theorem RunFrame.setController (h : RunFrame r s) (c : Controller) (hr : c.reports = s.controller.reports)
    (hs : c.statusSeen = s.controller.statusSeen) : RunFrame r (s.setController c) :=
  h.trans
    { pending := rfl, freeCount := rfl, timer := rfl, control := rfl, driven := id, regions := rfl, reports := hr
      statusSeen := hs, allocator := rfl, recoder := rfl, keys := rfl, sound := id, side := rfl, store := rfl, line := rfl
      reporter := rfl, queue := fun x => ⟨x.head, x.waiting⟩ }

theorem RunFrame.modCtx (h : RunFrame r s) (p : Program) (f : ProgramCtx → ProgramCtx) : RunFrame r (s.modCtx p f) :=
  h.setController _ rfl rfl

theorem RunFrame.note (h : RunFrame r s) (p : Program) (f : Notes → Notes) : RunFrame r (s.note p f) :=
  h.setController _ rfl rfl

theorem RunFrame.intakeNote (h : RunFrame r s) (p : Program) (f : Notes → Notes) : RunFrame r (s.intakeNote p f) :=
  h.setController _ rfl rfl

theorem RunFrame.atPhase (h : RunFrame r s) (ph : IntakePhase) : RunFrame r (s.atPhase ph) := h.setController _ rfl rfl

theorem RunFrame.countTake (h : RunFrame r s) : RunFrame r s.countTake := h.setController _ rfl rfl

theorem RunFrame.setHalt (h : RunFrame r s) (x : HaltPhase) : RunFrame r (s.setHalt x) := h.setController _ rfl rfl

theorem RunFrame.setFinish (h : RunFrame r s) (p : Program) (w : Option FinishWork) : RunFrame r (s.setFinish p w) :=
  h.modCtx p _

theorem RunFrame.setLast (h : RunFrame r s) (p : Program) (o : Outcome) (n : Word) : RunFrame r (s.setLast p o n) :=
  h.modCtx p _

theorem RunFrame.finishA (h : RunFrame r s) (p : Program) (o : Outcome) (n : Word) : RunFrame r (s.finishA p o n) :=
  (h.modCtx p _).setLast p o n

theorem RunFrame.statusFailed (h : RunFrame r s) (p : Program) : RunFrame r (s.statusFailed p) := h.note p _

theorem RunFrame.haltNote (h : RunFrame r s) (p : Program) : RunFrame r (State.haltNote p s) := h.note p _

theorem RunFrame.intakeAbandonNote (h : RunFrame r s) (p : Program) : RunFrame r (State.intakeAbandonNote p s) :=
  h.intakeNote p _

/-! ### Accesses, events and the queue of fault records -/

theorem RunFrame.issue (h : RunFrame r s) (q : Request) : RunFrame r (s.issue q).1 := by
  refine h.trans ?_
  obtain ⟨l, hl⟩ := s.issue_setLink q
  have hr : l.regions = s.link.regions := by
    have := s.issue_regions q; rw [hl] at this; exact this
  rw [hl]
  exact
    { pending := rfl, freeCount := rfl, timer := rfl, control := rfl, driven := id, regions := hr, reports := rfl
      statusSeen := rfl, allocator := rfl, recoder := rfl, keys := rfl, sound := id, side := rfl, store := rfl, line := rfl
      reporter := rfl, queue := fun x => ⟨x.head, x.waiting⟩ }

theorem RunFrame.of_issue (h : RunFrame r s) {q : Request} {o : Option Reply} (e : s.issue q = (t, o)) : RunFrame r t := by
  have := h.issue q; rwa [e] at this

theorem RunFrame.issueRecord (h : RunFrame r s) (a : Agent) (p : Program) (addr : Long) (n : Nat) (d : List Byte) :
    RunFrame r (s.issueRecord a p addr n d).1 := h.issue _

theorem RunFrame.of_issueRecord (h : RunFrame r s) {a : Agent} {p : Program} {addr : Long} {n : Nat} {d : List Byte}
    {o : Option Reply} (e : s.issueRecord a p addr n d = (t, o)) : RunFrame r t := h.of_issue e

theorem RunFrame.of_issueStatus (h : RunFrame r s) {p : Program} {o : Option Reply} (e : s.issueStatus p = (t, o)) :
    RunFrame r t := h.of_issue e

/-- A raise keeps the line driven. -/
theorem State.raise_driven (s : State) (f : EventFlag) : (s.raise f).LineDriven := rfl

theorem RunFrame.raise (h : RunFrame r s) (f : EventFlag) : RunFrame r (s.raise f) :=
  h.trans
    { pending := rfl, freeCount := rfl, timer := rfl, control := rfl, driven := fun _ => s.raise_driven f, regions := rfl
      reports := rfl, statusSeen := rfl, allocator := rfl, recoder := rfl, keys := rfl, sound := id, side := rfl
      store := rfl, line := rfl, reporter := rfl, queue := fun x => ⟨x.head, x.waiting⟩ }

theorem RunFrame.notice (h : RunFrame r s) (b : Bool) : RunFrame r (s.setControl { s.control with notice := b }) :=
  h.trans
    { pending := rfl, freeCount := rfl, timer := rfl, control := rfl, driven := id, regions := rfl, reports := rfl
      statusSeen := rfl, allocator := rfl, recoder := rfl, keys := rfl, sound := id, side := rfl, store := rfl, line := rfl
      reporter := rfl, queue := fun x => ⟨x.head, x.waiting⟩ }

/-- What the start of a fault record write does: the write in flight, or ended without success where the link refuses it;
none on an empty queue (R166, R168). -/
theorem State.startFaultWrite_cases (s : State) :
    ∃ l w, s.startFaultWrite = (s.setLink l).setReporter { s.reporter with faultWrite := w } ∧
      l.regions = s.link.regions ∧ (w = none ↔ s.reporter.faultQueue = []) ∧
      (w = none ∨ w = some .waiting ∨ w = some (.ended false)) ∧ (s.reporter.faultQueue = [] → l = s.link) := by
  unfold State.startFaultWrite
  split
  · rename_i h
    exact ⟨s.link, none, rfl, rfl, by simp [h], .inl rfl, fun _ => rfl⟩
  · rename_i x rest h
    obtain ⟨l, hl⟩ := s.issue_setLink (writeRequest .faultRecord (some x.key) x.area (faultRecordBytes x))
    have hr := s.issue_regions (writeRequest .faultRecord (some x.key) x.area (faultRecordBytes x))
    split
    · rename_i s1 e
      have : s1 = s.setLink l := by rw [← hl, e]
      subst this
      refine ⟨l, some .waiting, rfl, by rw [hl] at hr; exact hr, by simp [h], .inr (.inl rfl), fun h' => by simp [h] at h'⟩
    · rename_i s1 _ e
      have : s1 = s.setLink l := by rw [← hl, e]
      subst this
      refine ⟨l, some (.ended false), rfl, by rw [hl] at hr; exact hr, by simp [h], .inr (.inr rfl)
        , fun h' => by simp [h] at h'⟩

theorem RunFrame.requestFaultRecord (h : RunFrame r s) (q : FaultRequest) : RunFrame r (s.requestFaultRecord q) := by
  refine h.trans ?_
  unfold State.requestFaultRecord
  split
  · obtain ⟨l, w, e, hl, hw, -, -⟩ :=
      (s.setReporter { s.reporter with faultQueue := [q] }).startFaultWrite_cases
    rw [e]
    refine
      { pending := rfl, freeCount := rfl, timer := rfl, control := rfl, driven := id, regions := hl, reports := rfl
        statusSeen := rfl, allocator := rfl, recoder := rfl, keys := rfl, sound := id, side := rfl, store := rfl
        line := rfl, reporter := rfl, queue := fun _ => ⟨?_, ?_⟩ }
    · exact hw.symm
    · simp
  · rename_i head waiting hq
    split
    · refine
        { pending := rfl, freeCount := rfl, timer := rfl, control := rfl, driven := id, regions := rfl, reports := rfl
          statusSeen := rfl, allocator := rfl, recoder := rfl, keys := rfl, sound := id, side := rfl, store := rfl
          line := rfl, reporter := rfl, queue := fun hs => ⟨?_, ?_⟩ }
      · have := hs.head; rw [hq] at this; simpa [State.note] using this
      · have := hs.waiting; rw [hq] at this
        have e : (waiting.map fun r => if r.program = q.program then q else r).map FaultRequest.program =
            waiting.map FaultRequest.program := by
          rw [List.map_map]; apply List.map_congr_left; intro x _
          by_cases hx : x.program = q.program <;> simp [hx]
        show ((waiting.map fun r => if r.program = q.program then q else r).map FaultRequest.program).Nodup
        rw [e]; exact this
    · rename_i hn
      refine
        { pending := rfl, freeCount := rfl, timer := rfl, control := rfl, driven := id, regions := rfl, reports := rfl
          statusSeen := rfl, allocator := rfl, recoder := rfl, keys := rfl, sound := id, side := rfl, store := rfl
          line := rfl, reporter := rfl, queue := fun hs => ⟨?_, ?_⟩ }
      · have := hs.head; rw [hq] at this; simpa using this
      · have := hs.waiting; rw [hq] at this
        show ((waiting ++ [q]).map FaultRequest.program).Nodup
        rw [List.map_append, List.nodup_append]
        refine ⟨this, by simp, ?_⟩
        intro a ha b hb
        simp only [List.map_cons, List.map_nil, List.mem_singleton] at hb
        subst hb
        rintro rfl
        obtain ⟨x, hx, e⟩ := List.mem_map.1 ha
        exact hn (List.any_eq_true.2 ⟨x, hx, by simpa using e⟩)

theorem RunFrame.hold (h : RunFrame r s) (p : Program) (b : Bool) (info : FaultInfo) : RunFrame r (s.hold p b info) := by
  have hn : RunFrame r (if b then s.intakeNote p fun n => { n with heldFault := true }
      else s.note p fun n => { n with heldFault := true }) := by
    split
    · exact h.intakeNote p _
    · exact h.note p _
  unfold State.hold
  generalize (if b then s.intakeNote p fun n => { n with heldFault := true }
    else s.note p fun n => { n with heldFault := true }) = noted at hn
  dsimp only
  cases (s.ctx p).state
  · exact h
  · exact (hn.modCtx p _).requestFaultRecord _
  · exact (hn.modCtx p _).requestFaultRecord _
  · exact (hn.modCtx p _).requestFaultRecord _
  · exact hn

end Sys2Proof.Machine
end

