-- ==== Sys2Proof/Laws/Controller.lean ====
section
/-! SUPPORT. Each piece of the program controller's work stays within RunFrame. -/

namespace Sys2Proof.Machine

variable {r s t : State}

/-! ### Parity records -/

/-- A change of a parity record that puts nothing in force and keeps a CLEAR record clear. -/
structure ParityRecord.Tame (a b : ParityRecord) : Prop where
  inForce : b.inForce = true → a.inForce = true ∧ b.active = a.active
  clear :
    (a.scrambled = false → a.inForce = false ∧ a.active = none) → b.scrambled = false → b.inForce = false ∧ b.active = none

theorem ParityRecord.tame_offed (a : ParityRecord) : a.Tame a.offed :=
  ⟨fun h => Bool.noConfusion h, fun h hb => ⟨rfl, (h hb).2⟩⟩

theorem ParityRecord.tame_handed (a : ParityRecord) (q : Parity) (n : Word) : a.Tame (a.handed q n) := by
  unfold ParityRecord.handed
  split <;> exact ⟨fun h => ⟨h, rfl⟩, fun h => h⟩

theorem ParityRecord.tame_started (a : ParityRecord) (b : Bool) : a.Tame (ParityRecord.started b) :=
  ⟨fun h => Bool.noConfusion h, fun _ h => ⟨rfl, by cases b with
    | false => rfl
    | true => cases h⟩⟩

theorem Keys.isProtected_iff (k : Keys) (p : Program) (q : Parity) :
    k.isProtected p q = true ↔ (k.records.look p).inForce = true ∧ (k.records.look p).active = some q := by
  simp [Keys.isProtected]

theorem Keys.sound_of_tame {k : Keys} {v : PerProgram ParityRecord} (hv : ∀ p, (k.records.look p).Tame (v.look p))
    (h : k.Sound ∧ k.ClearIsClear) : ({ k with records := v } : Keys).Sound ∧ ({ k with records := v } : Keys).ClearIsClear := by
  refine ⟨⟨h.1.busy, h.1.installing, ?_⟩, fun p => (hv p).clear (h.2 p)⟩
  intro p q hp
  have hp := (Keys.isProtected_iff _ p q).1 hp
  have ha := (hv p).inForce hp.1
  exact h.1.active p q ((Keys.isProtected_iff _ p q).2 ⟨ha.1, by rw [← ha.2]; exact hp.2⟩)

theorem RunFrame.records (h : RunFrame r s) (v : PerProgram ParityRecord)
    (hv : ∀ p, (s.keys.records.look p).Tame (v.look p)) : RunFrame r (s.setKeys { s.keys with records := v }) :=
  h.trans
    { pending := rfl, freeCount := rfl, timer := rfl, control := rfl, driven := id, regions := rfl, reports := rfl
      statusSeen := rfl, allocator := rfl, recoder := rfl, keys := rfl, sound := fun x => Keys.sound_of_tame hv x
      side := rfl, store := rfl, line := rfl, reporter := rfl, queue := fun x => ⟨x.head, x.waiting⟩ }

theorem ParityRecord.tame_refl (a : ParityRecord) : a.Tame a := ⟨fun h => ⟨h, rfl⟩, id⟩

theorem RunFrame.modRecord (h : RunFrame r s) (p : Program) (f : ParityRecord → ParityRecord)
    (hf : ∀ a : ParityRecord, a.Tame (f a)) :
    RunFrame r (s.setKeys { s.keys with records := s.keys.records.modify p f }) := by
  apply h.records
  intro q
  rw [PerProgram.look_modify]
  split
  · exact hf _
  · exact ParityRecord.tame_refl _

theorem RunFrame.putRecord (h : RunFrame r s) (p : Program) (b : Bool) :
    RunFrame r (s.setKeys { s.keys with records := s.keys.records.put p (ParityRecord.started b) }) := by
  apply h.records
  intro q
  rw [PerProgram.look_put]
  split
  · exact ParityRecord.tame_started _ b
  · exact ParityRecord.tame_refl _

/-! ### Small parts -/

theorem RunFrame.setSide (h : RunFrame r s) (x : Side)
    (hx : x = { s.side with
      latch := x.latch, level := x.level, counters := x.counters, faultNote := x.faultNote, cueNote := x.cueNote }) :
    RunFrame r (s.setSide x) :=
  h.trans
    { pending := rfl, freeCount := rfl, timer := rfl, control := rfl, driven := id, regions := rfl, reports := rfl
      statusSeen := rfl, allocator := rfl, recoder := rfl, keys := rfl, sound := id, side := hx, store := rfl, line := rfl
      reporter := rfl, queue := fun x => ⟨x.head, x.waiting⟩ }

theorem RunFrame.setDelivered (h : RunFrame r s) (v : PerProgram (List Nat)) :
    RunFrame r (s.setAllocator { s.allocator with delivered := v }) :=
  h.trans
    { pending := rfl, freeCount := rfl, timer := rfl, control := rfl, driven := id, regions := rfl, reports := rfl
      statusSeen := rfl, allocator := rfl, recoder := rfl, keys := rfl, sound := id, side := rfl, store := rfl, line := rfl
      reporter := rfl, queue := fun x => ⟨x.head, x.waiting⟩ }

theorem RunFrame.setCounters (h : RunFrame r s) (v : PerProgram (BitVec 4)) :
    RunFrame r (s.setRecoder { s.recoder with counters := v }) :=
  h.trans
    { pending := rfl, freeCount := rfl, timer := rfl, control := rfl, driven := id, regions := rfl, reports := rfl
      statusSeen := rfl, allocator := rfl, recoder := rfl, keys := rfl, sound := id, side := rfl, store := rfl, line := rfl
      reporter := rfl, queue := fun x => ⟨x.head, x.waiting⟩ }

theorem RunFrame.noticeIfAllOff (h : RunFrame r s) : RunFrame r s.noticeIfAllOff := by
  unfold State.noticeIfAllOff
  split
  · exact h.notice true
  · exact h

theorem RunFrame.programOff (h : RunFrame r s) (p : Program) : RunFrame r (s.programOff p) :=
  ((h.modCtx p _).modRecord p _ ParityRecord.tame_offed).noticeIfAllOff

theorem RunFrame.endAbandon (h : RunFrame r s) (p : Program) : RunFrame r (s.endAbandon p) := (h.modCtx p _).programOff p

theorem RunFrame.offIfDrained (h : RunFrame r s) (p : Program) : RunFrame r (s.offIfDrained p) := by
  unfold State.offIfDrained
  split
  · exact h.programOff p
  · exact h

theorem RunFrame.noteSideFault (h : RunFrame r s) (p : Program) : RunFrame r (s.noteSideFault p) := h.setSide _ rfl

theorem RunFrame.cueMatched (h : RunFrame r s) (p : Program) (d : Disposition) : RunFrame r (s.cueMatched p d) := by
  unfold State.cueMatched
  split
  · exact (h.setSide _ rfl).raise _
  · exact h

theorem RunFrame.startProgram (h : RunFrame r s) (p : Program) (f : Fixed) : RunFrame r (s.startProgram p f) := by
  unfold State.startProgram
  exact ((((h.modCtx p _).setDelivered _).setCounters _).putRecord p f.scrambled).setSide _ rfl

theorem RunFrame.handPair (h : RunFrame r s) (p : Program) : RunFrame r (s.handPair p) := by
  unfold State.handPair
  dsimp only
  split
  · exact h
  · split
    · exact h
    · split
      · exact (h.modCtx p _).modRecord p _ fun a => a.tame_handed _ _
      · exact h

theorem RunFrame.handCue (h : RunFrame r s) (p : Program) : RunFrame r (s.handCue p) := by
  unfold State.handCue
  split
  · exact h
  · exact h.setSide _ rfl

/-! ### Status parts -/

theorem RunFrame.statusRun : ∀ (todo : List Program) {s : State}, RunFrame r s → RunFrame r (State.statusRun todo s)
  | [], s, h => by
    unfold State.statusRun
    dsimp only
    split
    · exact (h.setController _ rfl rfl).setController _ rfl rfl
    · exact h.setController _ rfl rfl
  | p :: rest, s, h => by
    unfold State.statusRun
    split
    · rename_i e; exact (h.of_issueStatus e).setController _ rfl rfl
    · rename_i e; exact RunFrame.statusRun rest ((h.of_issueStatus e).statusFailed p)

theorem RunFrame.startStatus (h : RunFrame r s) : RunFrame r s.startStatus := by
  unfold State.startStatus
  split
  · exact h.statusRun _
  · exact h.setController _ rfl rfl

theorem RunFrame.statusReply (h : RunFrame r s) (x : Reply) : RunFrame r (s.statusReply x) := by
  unfold State.statusReply
  split
  · exact h
  · exact h.statusRun _
  · exact (h.statusFailed _).statusRun _

/-! ### Abandonment and HALT -/

theorem RunFrame.abandonFrom {a : Agent} {note : State → State} (hn : ∀ {s}, RunFrame r s → RunFrame r (note s))
    (p : Program) : ∀ (fuel i : Nat) {s : State}, RunFrame r s → RunFrame r (State.abandonFrom a note p fuel i s).1
  | 0, _, _, h => h
  | fuel + 1, i, s, h => by
    unfold State.abandonFrom
    dsimp only
    split
    · exact h
    · split
      · exact RunFrame.abandonFrom hn p fuel _ h
      · split
        · rename_i e; exact h.of_issueRecord e
        · rename_i e; exact RunFrame.abandonFrom hn p fuel _ (hn (h.of_issueRecord e))

theorem RunFrame.abandonReply {a : Agent} {note : State → State} (hn : ∀ {s}, RunFrame r s → RunFrame r (note s))
    (h : RunFrame r s) (p : Program) (b : Bool) (i : Nat) (x : Reply) :
    RunFrame r (State.abandonReply a note p b i x s).1 := by
  unfold State.abandonReply
  split
  · exact RunFrame.abandonFrom hn p _ _ (hn h)
  · split
    · exact RunFrame.abandonFrom hn p _ _ h
    · split
      · rename_i e; exact h.of_issueRecord e
      · rename_i e; exact RunFrame.abandonFrom hn p _ _ (hn (h.of_issueRecord e))

theorem RunFrame.haltAdvance (b : Bool) : ∀ (todo : List Program) {s : State}, RunFrame r s →
    RunFrame r (State.haltAdvance b todo s)
  | [], s, h => by
    unfold State.haltAdvance
    split
    · exact (h.setHalt _).startStatus
    · exact h.setHalt _
  | p :: rest, s, h => by
    unfold State.haltAdvance
    split
    · exact RunFrame.haltAdvance b rest h
    · split
      · exact h.setHalt _
      · have ha := RunFrame.abandonFrom (a := .halt) (note := State.haltNote p) (fun x => x.haltNote p) p 4 0 h
        split <;> rename_i e <;> rw [e] at ha
        · exact ha.setHalt _
        · exact ha.setHalt _
        · exact RunFrame.haltAdvance b rest (ha.endAbandon p)

theorem RunFrame.haltAfter (p : Program) (rest : List Program) (b : Bool) (x : State × AbandonWait)
    (h : RunFrame r x.1) : RunFrame r (State.haltAfter p rest b x) := by
  unfold State.haltAfter
  split
  · exact h.setHalt _
  · exact h.setHalt _
  · exact (h.endAbandon p).haltAdvance b rest

theorem RunFrame.haltReply (h : RunFrame r s) (x : Reply) : RunFrame r (s.haltReply x) := by
  unfold State.haltReply
  split
  · exact .haltAfter _ _ _ _ (h.abandonReply (fun y => y.haltNote _) _ _ _ _)
  · exact .haltAfter _ _ _ _ (h.abandonReply (fun y => y.haltNote _) _ _ _ _)
  · exact h

/-! ### Intake -/

theorem RunFrame.endHaltedIntake (h : RunFrame r s) : RunFrame r s.endHaltedIntake := by
  unfold State.endHaltedIntake
  dsimp only
  split
  · exact RunFrame.haltAdvance _ _ (h.setController _ rfl rfl)
  · exact h.setController _ rfl rfl

theorem RunFrame.beginProgram (h : RunFrame r s) (p : Program) : RunFrame r (s.beginProgram p).1 := by
  refine RunFrame.issue ?_ _
  exact h.setController _ rfl rfl

theorem RunFrame.nextProgram (h : RunFrame r s) : RunFrame r s.nextProgram.1 := by
  unfold State.nextProgram
  split
  · exact h
  · split
    · exact h.endHaltedIntake
    · split
      · exact h.atPhase _
      · exact h.beginProgram _

theorem RunFrame.tryTake (h : RunFrame r s) (p : Program) : RunFrame r (s.tryTake p).1 := by
  unfold State.tryTake
  split
  · exact h
  · dsimp only
    split
    · exact h.endHaltedIntake
    · split
      · exact (h.atPhase _).issue _
      · exact h.nextProgram

theorem RunFrame.afterMode (h : RunFrame r s) (p : Program) : RunFrame r (s.afterMode p).1 := (h.handPair p).tryTake p

theorem RunFrame.intakeAfter (p : Program) (x : State × AbandonWait) (h : RunFrame r x.1) :
    RunFrame r (State.intakeAfter p x).1 := by
  unfold State.intakeAfter
  split
  · exact h.atPhase _
  · exact h.atPhase _
  · exact (h.endAbandon p).nextProgram

theorem RunFrame.intakeAbandon (h : RunFrame r s) (p : Program) : RunFrame r (s.intakeAbandon p).1 := by
  unfold State.intakeAbandon
  split
  · exact h.atPhase _
  · exact .intakeAfter p _ (RunFrame.abandonFrom (fun x => x.intakeAbandonNote p) p _ _ h)

theorem RunFrame.drainProgram (h : RunFrame r s) (p : Program) : RunFrame r (s.drainProgram p).1 := by
  unfold State.drainProgram
  split
  · exact (h.programOff p).afterMode p
  · exact (h.modCtx p _).afterMode p

theorem RunFrame.transition (h : RunFrame r s) (p : Program) : RunFrame r (s.transition p).1 := by
  unfold State.transition
  split
  · exact (h.atPhase _).issue _
  · exact h.nextProgram
  · exact h.nextProgram
  · exact h.afterMode p
  · exact h.intakeAbandon p
  · exact h.intakeAbandon p
  · exact h.afterMode p
  · exact h.drainProgram p
  · exact h.intakeAbandon p
  · exact (h.modCtx p _).afterMode p
  · exact h.drainProgram p
  · exact h.intakeAbandon p
  · exact h.afterMode p
  · exact h.intakeAbandon p
  · exact h.intakeAbandon p

theorem RunFrame.liveReply (h : RunFrame r s) (p : Program) (x : Reply) : RunFrame r (s.liveReply p x).1 := by
  unfold State.liveReply
  split
  · exact ((h.intakeNote p _).handCue p).transition p
  · dsimp only
    split
    · exact (((h.modCtx p _).intakeNote p _).handCue p).transition p
    · exact ((h.modCtx p _).handCue p).transition p

theorem RunFrame.fixedReply (h : RunFrame r s) (p : Program) (x : Reply) : RunFrame r (s.fixedReply p x).1 := by
  unfold State.fixedReply
  split
  · exact h.nextProgram
  · split
    · exact ((h.modCtx p _).intakeNote p _).nextProgram
    · split
      · exact (h.startProgram p _).afterMode p
      · exact (h.modCtx p _).nextProgram

theorem RunFrame.faultedAttempt (h : RunFrame r s) (p : Program) (info : FaultInfo) (o : Option (Outcome × Word)) :
    RunFrame r (s.faultedAttempt p info o).1 := (h.atPhase _).issueRecord _ _ _ _ _

theorem RunFrame.faultedReply (h : RunFrame r s) (p : Program) (info : FaultInfo) (o : Option (Outcome × Word)) :
    RunFrame r (s.faultedReply p info o).1 := by
  unfold State.faultedReply
  refine RunFrame.nextProgram (RunFrame.hold ?_ _ _ _)
  split
  · exact h
  · exact h.setLast _ _ _

/-- The next step of a take keeps the frame where the step itself does. -/
theorem RunFrame.takeOn (h : RunFrame r s) (p : Program) {next : State → Cont} (hn : RunFrame r (next s).1) :
    RunFrame r (s.takeOn p next).1 := by
  unfold State.takeOn
  split
  · exact h.nextProgram
  · exact hn

theorem RunFrame.stateReply (h : RunFrame r s) (p : Program) (x : Reply) : RunFrame r (s.stateReply p x).1 := by
  unfold State.stateReply
  split
  · exact (h.hold _ _ _).nextProgram
  · refine h.takeOn p ?_
    split
    · exact (h.countTake.atPhase _).issue _
    · exact h.nextProgram

theorem RunFrame.finishAtIntake (h : RunFrame r s) (p : Program) (o : Outcome) (rf : RecordFields) :
    RunFrame r (s.finishAtIntake p o rf).1 := (h.atPhase _).issueRecord _ _ _ _ _

theorem RunFrame.recordReply (h : RunFrame r s) (p : Program) (x : Reply) : RunFrame r (s.recordReply p x).1 := by
  unfold State.recordReply
  dsimp only
  split
  · exact h.faultedAttempt _ _ _
  · refine h.takeOn p ?_
    split
    · exact h.faultedAttempt _ _ _
    · split
      · exact h.finishAtIntake _ _ _
      · exact (h.atPhase _).issue _

theorem RunFrame.takenWrite (h : RunFrame r s) (p : Program) (rf : RecordFields) (slices : List SliceDesc)
    (sides : List SlotSide) : RunFrame r (s.takenWrite p rf slices sides).1 := (h.atPhase _).issueRecord _ _ _ _ _

theorem RunFrame.classify (p : Program) (rf : RecordFields) (slices : List SliceDesc) :
    ∀ (rest : List SideEntry) (done : List SlotSide) {s : State}, RunFrame r s →
      RunFrame r (State.classify p rf slices done rest s).1
  | [], done, s, h => by unfold State.classify; exact h.takenWrite _ _ _ _
  | e :: rest, done, s, h => by
    unfold State.classify
    split
    · exact RunFrame.classify p rf slices rest _ (h.cueMatched _ _)
    · exact (h.atPhase _).issue _

theorem RunFrame.sliceTableReply (h : RunFrame r s) (p : Program) (rf : RecordFields) (x : Reply) :
    RunFrame r (s.sliceTableReply p rf x).1 := by
  unfold State.sliceTableReply
  dsimp only
  split
  · split
    · exact h.finishAtIntake _ _ _
    · exact h.faultedAttempt _ _ _
  · refine h.takeOn p ?_
    split
    · exact h.finishAtIntake _ _ _
    · split
      · exact (h.atPhase _).issue _
      · exact h.takenWrite _ _ _ _

theorem RunFrame.sideTableReply (h : RunFrame r s) (p : Program) (rf : RecordFields) (slices : List SliceDesc) (x : Reply) :
    RunFrame r (s.sideTableReply p rf slices x).1 := by
  unfold State.sideTableReply
  split
  · exact (h.intakeNote p _).takeOn p ((h.intakeNote p _).takenWrite _ _ _ _)
  · exact h.takeOn p (h.classify _ _ _ _ _)

theorem RunFrame.headReply (h : RunFrame r s) (p : Program) (rf : RecordFields) (slices : List SliceDesc)
    (done : List SlotSide) (e : SideEntry) (rest : List SideEntry) (x : Reply) :
    RunFrame r (s.headReply p rf slices done e rest x).1 := by
  unfold State.headReply
  split
  · exact (h.noteSideFault p).takeOn p ((h.noteSideFault p).classify _ _ _ _ _)
  · exact h.takeOn p ((h.cueMatched _ _).classify _ _ _ _ _)

theorem RunFrame.takenReply (h : RunFrame r s) (p : Program) (slot : Slot) (link : Long) (x : Reply) :
    RunFrame r (s.takenReply p slot link x).1 := by
  unfold State.takenReply
  split
  · exact h.faultedAttempt _ _ _
  · split
    · exact h.nextProgram
    · exact (h.modCtx p _).tryTake p

theorem RunFrame.finishOutcomeReply (h : RunFrame r s) (p : Program) (o : Outcome) (n : Word) (rf : RecordFields)
    (x : Reply) : RunFrame r (s.finishOutcomeReply p o n rf x).1 := by
  unfold State.finishOutcomeReply
  split
  · exact h.faultedAttempt _ _ _
  · exact (h.atPhase _).issueRecord _ _ _ _ _

theorem RunFrame.finishStateReply (h : RunFrame r s) (p : Program) (o : Outcome) (n : Word) (rf : RecordFields)
    (x : Reply) : RunFrame r (s.finishStateReply p o n rf x).1 := by
  unfold State.finishStateReply
  split
  · exact h.faultedAttempt _ _ _
  · split
    · exact (h.setLast p o _).nextProgram
    · exact ((h.setLast p o _).modCtx p _).tryTake p

theorem RunFrame.intakeStep (h : RunFrame r s) (x : Reply) : RunFrame r (s.intakeStep x).1 := by
  unfold State.intakeStep
  split
  · exact h
  · dsimp only
    split
    · split
      · exact h.endHaltedIntake
      · exact h.liveReply _ _
    · split
      · exact h.endHaltedIntake
      · exact h.fixedReply _ _
    · exact h
    · exact .intakeAfter _ _ (h.abandonReply (fun y => y.intakeAbandonNote _) _ _ _ _)
    · exact .intakeAfter _ _ (h.abandonReply (fun y => y.intakeAbandonNote _) _ _ _ _)
    · exact h.stateReply _ _
    · exact h.recordReply _ _
    · exact h.sliceTableReply _ _ _
    · exact h.sideTableReply _ _ _ _
    · exact h.headReply _ _ _ _ _ _ _
    · exact h.takenReply _ _ _ _
    · exact h.finishOutcomeReply _ _ _ _ _
    · exact h.finishStateReply _ _ _ _ _
    · exact h.faultedReply _ _ _
    · exact h

theorem RunFrame.intakeRun : ∀ (fuel : Nat) (c : Cont), RunFrame r c.1 → RunFrame r (State.intakeRun fuel c)
  | 0, c, h => by unfold State.intakeRun; exact h
  | fuel + 1, (s, none), h => by unfold State.intakeRun; exact h
  | fuel + 1, (s, some x), h => by
    unfold State.intakeRun
    exact RunFrame.intakeRun fuel _ (RunFrame.intakeStep h x)

theorem RunFrame.intakeReply (h : RunFrame r s) (x : Reply) : RunFrame r (s.intakeReply x) :=
  .intakeRun _ _ (h.intakeStep x)

theorem RunFrame.beginIntake (h : RunFrame r s) : RunFrame r s.beginIntake := by
  refine RunFrame.intakeRun _ _ (RunFrame.beginProgram ?_ 0)
  exact h.setController _ rfl rfl

/-! ### Finish and fault reports -/

theorem RunFrame.finishEnded (h : RunFrame r s) (p : Program) : RunFrame r (s.finishEnded p) := by
  unfold State.finishEnded
  dsimp only
  split
  · exact (h.setFinish p none).haltAdvance _ _
  · split
    · exact .intakeRun _ _ ((h.setFinish p none).transition p)
    · exact h.setFinish p none
  · exact h.setFinish p none

theorem RunFrame.finishDone (h : RunFrame r s) (x : Report) : RunFrame r (s.finishDone x) :=
  ((h.finishA _ _ _).offIfDrained _).finishEnded _

theorem RunFrame.finishHeld (h : RunFrame r s) (x : Report) (f : Failure) : RunFrame r (s.finishHeld x f) :=
  ((h.finishA _ _ _).hold _ _ _).finishEnded _

theorem RunFrame.finishFailed (h : RunFrame r s) (x : Report) (f : Failure) : RunFrame r (s.finishFailed x f) := by
  unfold State.finishFailed
  dsimp only
  split
  · rename_i e; exact (h.setFinish _ _).of_issueRecord e
  · rename_i e; exact ((h.setFinish _ _).of_issueRecord e).finishHeld x f

theorem RunFrame.finishStateWrite (h : RunFrame r s) (x : Report) : RunFrame r (s.finishStateWrite x) := by
  unfold State.finishStateWrite
  dsimp only
  split <;> rename_i e
  · exact (h.setFinish _ _).of_issueRecord e
  · exact ((h.setFinish _ _).of_issueRecord e).finishFailed x _
  · exact (h.setFinish _ _).of_issueRecord e

theorem RunFrame.finishOutcomeWrite (h : RunFrame r s) (x : Report) (o : Outcome) (a b c d : Nat) :
    RunFrame r (s.finishOutcomeWrite x o a b c d) := by
  unfold State.finishOutcomeWrite
  dsimp only
  split <;> rename_i e
  · exact (h.setFinish _ _).of_issueRecord e
  · exact ((h.setFinish _ _).of_issueRecord e).finishFailed x _
  · exact (h.setFinish _ _).of_issueRecord e

theorem RunFrame.strictEnded (h : RunFrame r s) (x : Report) (f : Failure) (pass : Nat) (b : Bool) :
    RunFrame r (s.strictEnded x f pass b) := by
  unfold State.strictEnded
  refine RunFrame.finishEnded (RunFrame.hold ?_ _ _ _) _
  cases b
  · exact h
  · exact h.modCtx _ _

theorem RunFrame.strictWrite (h : RunFrame r s) (x : Report) (f : Failure) (pass : Nat) :
    RunFrame r (s.strictWrite x f pass) := by
  unfold State.strictWrite
  dsimp only
  split <;> rename_i e
  · exact (h.setFinish _ _).of_issueRecord e
  · exact ((h.setFinish _ _).of_issueRecord e).strictEnded x f pass false

theorem RunFrame.finishReply (h : RunFrame r s) (p : Program) (x : Reply) : RunFrame r (s.finishReply p x) := by
  unfold State.finishReply
  split
  · exact h
  · split
    · exact h.finishStateWrite _
    · exact h.finishFailed _ _
    · exact h.finishDone _
    · exact h.finishFailed _ _
    · exact h.finishHeld _ _
    · split
      · exact h.strictEnded _ _ _ _
      · exact h.setFinish _ _

theorem RunFrame.handleReport (h : RunFrame r s) (x : Report) : RunFrame r (s.handleReport x) := by
  unfold State.handleReport
  split
  · split
    · exact h.finishOutcomeWrite _ _ _ _ _ _
    · exact h.strictWrite _ _ _
  · exact h

/-- Taking a report: the list of reports without it, and then the controller's own work. -/
theorem State.takeReportOf_frame (s : State) (p : Program) (q : Report → Bool) :
    ∃ rest, RunFrame (s.setController { s.controller with reports := rest }) (s.takeReportOf p q) := by
  unfold State.takeReportOf
  split
  · rename_i rest _ _
    exact ⟨rest, RunFrame.handleReport (.refl _) _⟩
  · exact ⟨s.controller.reports, .refl _⟩

end Sys2Proof.Machine
end

