-- ==== Sys2Proof/Laws/Finish.lean ====
section
/-! SUPPORT. What the handling of a report does: holding, the end of the handling, and each write's end (R11, R22, R23, R166). -/

namespace Sys2Proof.Machine

/-- Two changes of one program's value are one. -/
theorem PerProgram.modify_modify {α : Type} (v : PerProgram α) (p : Program) (f g : α → α) :
    (v.modify p f).modify p g = v.modify p fun x => g (f x) := by
  unfold PerProgram.modify
  rw [PerProgram.look_put_same]
  simp [PerProgram.put]

theorem leBytes_length : ∀ n v, (leBytes n v).length = n
  | 0, _ => rfl
  | n + 1, v => by rw [leBytes, List.length_cons, leBytes_length n]

/-- 11.2: a fault record has 64 bytes. -/
theorem faultRecordBytes_length (r : FaultRequest) : (faultRecordBytes r).length = 64 := by
  simp only [faultRecordBytes, exactly, zeros, List.length_append, List.length_take, List.length_replicate]
  omega

/-- R166: the request for the write of a fault record. -/
theorem writeRequest_fault (r : FaultRequest) :
    writeRequest .faultRecord (some r.key) r.area (faultRecordBytes r) =
      { agent := .faultRecord, kind := .write, addr := r.area, length := 64, key := some r.key
        data := faultRecordBytes r } := by
  rw [writeRequest, faultRecordBytes_length]

/-- R166: a request that finds the queue empty begins its write, which has ended where it is refused. -/
theorem State.requestFaultRecord_empty (s : State) (r : FaultRequest) (hq : s.reporter.faultQueue = []) :
    (∀ region, checkAccess s.link.regions
        { agent := .faultRecord, kind := .write, addr := r.area, length := 64, key := some r.key
          data := faultRecordBytes r } = .ok region →
      s.requestFaultRecord r = { s with
        reporter := { s.reporter with faultQueue := [r], faultWrite := some .waiting }
        link := { s.link with
          accesses := s.link.accesses ++
            [{ tag := s.link.nextTag, agent := .faultRecord, kind := .write, addr := r.area, length := 64
               key := some r.key, region := region, data := faultRecordBytes r }]
          nextTag := s.link.nextTag + 1 } }) ∧
    ∀ e, checkAccess s.link.regions
        { agent := .faultRecord, kind := .write, addr := r.area, length := 64, key := some r.key
          data := faultRecordBytes r } = .error e →
      s.requestFaultRecord r = { s with
        reporter := { s.reporter with faultQueue := [r], faultWrite := some (.ended false) } } := by
  unfold State.requestFaultRecord
  rw [hq]
  simp only [State.startFaultWrite, State.setReporter, State.issue, writeRequest_fault]
  refine ⟨fun region h => ?_, ?_⟩
  · rw [h]
    rfl
  · rintro ⟨result, region⟩ h
    rw [h]

/-- R167, R40: the contents of a fault record request. -/
theorem State.faultRequest_eq (s : State) (p : Program) (info : FaultInfo) :
    s.faultRequest p info =
      { program := p, area := (s.ctx p).fixed.faultArea, key := (s.ctx p).fixed.accessKey, interval := s.timer.number
        info := info, count := (s.ctx p).window.count
        sequences := (List.range (s.ctx p).window.count).map fun i => ((s.ctx p).window.named i).sequence } := by
  simp [State.faultRequest, Window.valid, Function.comp_def]

/-- R11, R166, R167: all that a holding fault brought by a report can do. -/
theorem State.hold_spec (s : State) (p : Program) (info : FaultInfo) : s.HeldBy p info (s.hold p false info) := by
  unfold State.HeldBy
  intro c request write held
  refine ⟨?_, ?_, ?_⟩
  · intro h
    have h : (s.ctx p).state = .off := h
    simp only [State.hold, h]
  · intro h
    have h : (s.ctx p).state = .held := h
    simp only [State.hold, h]
    rfl
  · intro h1 h2
    have hh : s.hold p false info =
        ((s.note p fun n => { n with heldFault := true }).modCtx p fun c => { c with state := .held }).requestFaultRecord
          request := by
      rw [← show s.faultRequest p info = request from State.faultRequest_eq s p info]
      have h1 : (s.ctx p).state ≠ .off := h1
      have h2 : (s.ctx p).state ≠ .held := h2
      unfold State.hold
      split <;> simp_all
    rw [hh]
    refine ⟨?_, ?_⟩
    · intro hq
      have hq' : ((s.note p fun n => { n with heldFault := true }).modCtx p fun c =>
        { c with state := .held }).reporter.faultQueue = [] := hq
      exact State.requestFaultRecord_empty _ request hq'
    · intro head waiting hq
      have hq' : ((s.note p fun n => { n with heldFault := true }).modCtx p fun c =>
        { c with state := .held }).reporter.faultQueue = head :: waiting := hq
      refine ⟨?_, ?_⟩
      · intro hw
        unfold State.requestFaultRecord
        rw [hq']
        dsimp only
        rw [if_neg (by simpa using hw)]
        rfl
      · intro hw
        unfold State.requestFaultRecord
        rw [hq']
        dsimp only
        rw [if_pos (by simpa using hw)]
        have hm := PerProgram.modify_modify s.controller.notes p (fun n => { n with heldFault := true })
          (fun n => { n with faultRecordLost := true })
        have hp : request.program = p := rfl
        simp only [State.note, State.modCtx, State.setController, State.setReporter, hp, hm]
        rfl

/-- R15, R8, R23: all that the end of a report's handling can do. -/
theorem State.finishEnded_spec (s : State) (p : Program) : s.FinishOver p (s.finishEnded p) := by
  unfold State.FinishOver
  refine ⟨?_, ?_⟩
  · intro todo x h
    unfold State.finishEnded
    dsimp only
    have : (s.setFinish p none).controller.halt = some (.waitFinish todo x) := h
    rw [this]
    rfl
  · intro h
    have hn : ∀ todo x, (s.setFinish p none).controller.halt ≠ some (.waitFinish todo x) := h
    refine ⟨?_, ?_⟩
    · intro i hi hp hq
      have hi' : (s.setFinish p none).controller.intake = some i := hi
      have key : s.finishEnded p = State.intakeRun intakeFuel ((s.setFinish p none).transition p) := by
        unfold State.finishEnded
        dsimp only
        split
        · rename_i e; exact absurd e (hn _ _)
        · rename_i e _
          rw [hi'] at e
          cases e
          rw [if_pos ⟨hp, hq⟩]
        · simp_all
      refine ⟨key, fun hc => ?_⟩
      rw [key]
      have hc' : ((s.setFinish p none).transition p).2 = none := hc
      generalize hx : (s.setFinish p none).transition p = c at hc'
      obtain ⟨u, o⟩ := c
      cases hc'
      have : (u, (none : Option Reply)).1 = u := rfl
      show State.intakeRun 512 (u, none) = _
      rw [State.intakeRun]
      exact (congrArg Prod.fst hx).symm
    · intro hi
      unfold State.finishEnded
      dsimp only
      split
      · rename_i e; exact absurd e (hn _ _)
      · rename_i i e _
        have := hi i e
        rw [if_neg (by simpa [imp_iff_not_or] using this)]
        rfl
      · rfl

/-- R35, R22: A finished as the controller does it. -/
theorem State.finishA_eq (s : State) (r : Report) :
    s.finishA r.program r.body.outcome r.interval = s.aFinished r := by
  unfold State.finishA State.setLast State.modCtx State.aFinished State.setController
  simp only [PerProgram.modify_modify]
  rfl

/-- R22: the FAULTED attempt has ended. -/
theorem State.finishHeld_spec (s : State) (r : Report) (f : Failure) : s.FinishesHeld r f (s.finishHeld r f) := by
  unfold State.FinishesHeld State.finishHeld
  dsimp only
  rw [State.finishA_eq]
  exact ⟨_, State.hold_spec _ _ _, State.finishEnded_spec _ _⟩

theorem State.setFinish_eq (s : State) (r : Report) (ph : FinishPhase) :
    s.setFinish r.program (some { report := r, phase := ph }) = s.finishAt r ph := rfl

@[simp] theorem State.finishAt_link (s : State) (r : Report) (ph : FinishPhase) : (s.finishAt r ph).link = s.link := rfl
theorem State.finishAt_ctx (s : State) (r : Report) (ph : FinishPhase) :
    (s.finishAt r ph).ctx r.program = { s.ctx r.program with finish := some { report := r, phase := ph } } :=
  PerProgram.look_modify_same _ _ _

/-- The request of a state byte's write, at a phase. -/
theorem State.issueRecord_finishAt (s : State) (r : Report) (ph : FinishPhase) (value : Byte) :
    (s.finishAt r ph).issueRecord (.finish r.program) r.program ((s.ctx r.program).window.named 0).record 0 [value] =
      (s.finishAt r ph).issue (s.stateRequest r value) := by
  unfold State.issueRecord
  rw [State.finishAt_ctx]
  simp [writeRequest, State.stateRequest]

/-- R22: a write of a finish has failed. -/
theorem State.finishFailed_spec (s : State) (r : Report) (f : Failure) : s.FinishFails r f (s.finishFailed r f) := by
  unfold State.FinishFails
  refine ⟨?_, ?_⟩
  · intro region h
    unfold State.finishFailed
    dsimp only
    rw [State.setFinish_eq, State.issueRecord_finishAt, State.issue_of_ok (region := region) (by exact h)]
    rfl
  · rintro ⟨res, region⟩ h
    unfold State.finishFailed
    dsimp only
    rw [State.setFinish_eq, State.issueRecord_finishAt, State.issue_of_error (result := res) (region := region) (by exact h)]
    exact State.finishHeld_spec _ _ _

/-- R22: the outcome fields are written. -/
theorem State.finishStateWrite_spec (s : State) (r : Report) : s.WritesDone r (s.finishStateWrite r) := by
  unfold State.WritesDone
  refine ⟨?_, ?_⟩
  · intro region h
    unfold State.finishStateWrite
    dsimp only
    rw [State.setFinish_eq, doneCode, State.issueRecord_finishAt, State.issue_of_ok (region := region) (by exact h)]
    rfl
  · intro res region h
    unfold State.finishStateWrite
    dsimp only
    rw [State.setFinish_eq, doneCode, State.issueRecord_finishAt, State.issue_of_error (result := res) (region := region) (by exact h)]
    exact State.finishFailed_spec _ _ _

/-- R23, R37: the FAULTED write of a STRICT content fault has ended. -/
theorem State.strictEnded_spec (s : State) (r : Report) (f : Failure) (pass : Nat) (written : Bool) :
    s.StrictHolds r f pass written (s.strictEnded r f pass written) := by
  unfold State.StrictHolds State.strictEnded
  refine ⟨_, ?_, State.finishEnded_spec _ _⟩
  cases written
  · exact State.hold_spec _ _ _
  · exact State.hold_spec _ _ _

/-- Every program but one is OFF, and that one is made OFF. -/
theorem State.allOff_modCtx (s : State) (p : Program) (k : Keys) :
    ((s.modCtx p fun c => { c with state := .off }).setKeys k).allOff = true ↔
      ∀ q, q ≠ p → (s.ctx q).state = .off := by
  have h : ∀ q, ((s.modCtx p fun c => { c with state := .off }).setKeys k).ctx q =
      if q = p then { s.ctx p with state := .off } else s.ctx q := by
    intro q
    show (s.controller.programs.modify p fun c => { c with state := .off }).look q = _
    by_cases hq : q = p
    · subst hq
      rw [if_pos rfl, PerProgram.look_modify_same]
      rfl
    · rw [if_neg hq, PerProgram.look_modify_ne _ hq]
      rfl
  have hm : ∀ q : Program, q ∈ programs := by decide
  unfold State.allOff
  rw [List.all_eq_true]
  refine ⟨fun ha q hq => ?_, fun ha q _ => ?_⟩
  · have := ha q (hm q)
    rw [h, if_neg hq] at this
    simpa using this
  · rw [h]
    by_cases hq : q = p
    · simp [hq]
    · simp [hq, ha q hq]

/-- R10, R176: the last program that becomes OFF in DRAINING gives the notice. -/
theorem State.programOff_of_allOff (s : State) (p : Program) (hd : s.control.device = .draining)
    (h : ∀ q, q ≠ p → (s.ctx q).state = .off) :
    s.programOff p = { s with
      controller := { s.controller with programs := s.controller.programs.modify p fun c => { c with state := .off } }
      keys := { s.keys with
        records := s.keys.records.modify p fun x => { x with inForce := false, pending := none, switchHeld := false } }
      control := { s.control with notice := true } } := by
  unfold State.programOff State.noticeIfAllOff
  rw [if_pos ⟨hd, (State.allOff_modCtx s p _).2 h⟩]
  rfl

/-- R10, R94: a program becomes OFF and gives no notice. -/
theorem State.programOff_of_not (s : State) (p : Program)
    (h : s.control.device ≠ .draining ∨ ∃ q, q ≠ p ∧ (s.ctx q).state ≠ .off) :
    s.programOff p = { s with
      controller := { s.controller with programs := s.controller.programs.modify p fun c => { c with state := .off } }
      keys := { s.keys with
        records := s.keys.records.modify p fun x => { x with inForce := false, pending := none, switchHeld := false } } } := by
  unfold State.programOff State.noticeIfAllOff
  rw [if_neg]
  · rfl
  · rintro ⟨hd, ha⟩
    rcases h with h | ⟨q, hq, hn⟩
    · exact h hd
    · exact hn ((State.allOff_modCtx s p _).1 ha q hq)

theorem State.aFinished_ctx_ne (s : State) {r : Report} {q : Program} (h : q ≠ r.program) :
    (s.aFinished r).ctx q = s.ctx q :=
  PerProgram.look_modify_ne _ h _

/-- R10, R22, R35: both writes of a finish have succeeded. -/
theorem State.finishDone_spec (s : State) (r : Report) : s.Finishes r (s.finishDone r) := by
  have hc : (s.aFinished r).ctx r.program =
      { s.ctx r.program with
        window := { (s.ctx r.program).window with
          head := (s.ctx r.program).window.head + 1, count := (s.ctx r.program).window.count - 1 }
        lastOutcome := some r.body.outcome, lastInterval := r.interval } := PerProgram.look_modify_same _ _ _
  unfold State.Finishes State.finishDone
  dsimp only
  rw [State.finishA_eq]
  unfold State.offIfDrained
  rw [hc]
  dsimp only
  refine ⟨?_, ?_⟩
  · intro h
    rw [if_neg (by rintro ⟨h1, h2⟩; rcases h with h | h; exact h h1; omega)]
    exact State.finishEnded_spec _ _
  · intro h1 h2
    rw [if_pos ⟨h1, by omega⟩]
    refine ⟨fun hd hq => ?_, fun hn => ?_⟩
    · have := State.programOff_of_allOff (s.aFinished r) r.program hd fun q h => by
        rw [State.aFinished_ctx_ne s h]; exact hq q h
      rw [this]
      exact State.finishEnded_spec _ _
    · have := State.programOff_of_not (s.aFinished r) r.program (hn.imp_right fun ⟨q, h, h'⟩ =>
        ⟨q, h, by rw [State.aFinished_ctx_ne s h]; exact h'⟩)
      rw [this]
      exact State.finishEnded_spec _ _

end Sys2Proof.Machine
end

