-- ==== Sys2Proof/Laws/Keys.lean ====
section
/-! SUPPORT. The laws of the key slots: a slot set reads back, and the others stay. -/

namespace Sys2Proof.Machine

@[simp] theorem Keys.slot_setSlot_same (k : Keys) (p : Program) (q : Parity) (x : KeySlot) :
    (k.setSlot p q x).slot p q = x := by
  cases q <;> simp [Keys.setSlot, Keys.slot, KeyPair.setSlot, KeyPair.slot]

theorem Keys.slot_setSlot_ne (k : Keys) {p p' : Program} {q q' : Parity} (h : (p', q') ≠ (p, q)) (x : KeySlot) :
    (k.setSlot p q x).slot p' q' = k.slot p' q' := by
  by_cases hp : p' = p
  · subst hp
    cases q <;> cases q' <;> simp_all [Keys.setSlot, Keys.slot, KeyPair.setSlot, KeyPair.slot]
  · simp [Keys.setSlot, Keys.slot, PerProgram.look_modify_ne _ hp]

end Sys2Proof.Machine
end

