-- ==== Sys2Proof/Laws/Recoder.lean ====
section
/-! SUPPORT. What the parts of an engine's work do: the end of a job, the read of a slice and the beginning of a pass, each with
what a refused read leads to (R71, R72, R86, R88). -/

namespace Sys2Proof.Machine

/-- The read of a slice leaves the queue. -/
theorem State.readSlice_queue (s : State) (e : Engine) (j : Job) (w : PassWork) :
    (s.readSlice e j w).1.recoder.queue = s.recoder.queue := by
  unfold State.readSlice
  split
  · cases e <;> rfl
  · rw [State.issue_recoder]
    cases e <;> rfl

/-- The beginning of a pass leaves the queue. -/
theorem State.startPass_queue (s : State) (e : Engine) (j : Job) (pass : Nat) (source : Source) (quants : List Nat)
    (cutoff : Nat) (limits : List (Nat × StopReason)) :
    (s.startPass e j pass source quants cutoff limits).1.recoder.queue = s.recoder.queue := by
  unfold State.startPass
  simp only [State.readSlice_queue]
  cases e <;> rfl

/-- As many further refusals as jobs wait are all that the taking of a job can meet. -/
theorem State.engineRun_takeJob (s : State) (e : Engine) :
    State.engineRun e s.recoder.queue.length (s.takeJob e) = s.engineTakes e := by
  unfold State.engineTakes State.engineGoes State.takeJob
  split
  · rename_i hq
    simp only [State.startPass_queue]
    rw [hq]
    rfl
  · cases s.recoder.queue.length <;> rfl

/-- R86, R71: a hold ending, and the job that follows it. -/
theorem State.holdEnding_spec (s : State) (e : Engine) (j : Job) (o : Outcome) :
    s.EndsHeld e j o ((s.holdEnding e j o).engineTakes e) := by
  unfold State.EndsHeld
  refine congrArg (fun u => State.engineTakes u e) ?_
  cases e <;>
    simp only [State.holdEnding, State.setPhase, State.sendCompletion, State.sendReport, State.setFigures, State.giveSpare
      , State.returnPages, State.setStore, State.setRecoder, State.setController, State.setAllocator, Recoder.setEngine
      , Recoder.engine]

/-- R88, R71: a content fault, and the job that follows it. -/
theorem State.contentFault_spec (s : State) (e : Engine) (j : Job) (f : Failure) :
    s.EndsFaulted e j f (State.engineRun e s.recoder.queue.length (s.contentFault e j f)) := by
  unfold State.EndsFaulted State.contentFault
  refine ⟨fun h => ?_, fun h => ?_⟩
  · have hq : s.recoder.queue = (s.holdEnding e j .faultTolerated).recoder.queue := by cases e <;> rfl
    rw [if_pos h, hq, State.engineRun_takeJob]
    exact State.holdEnding_spec s e j _
  · have hq : s.recoder.queue = (s.faultEnding e j f).recoder.queue := by cases e <;> rfl
    rw [if_neg (by simp [h]), hq, State.engineRun_takeJob]
    refine congrArg (fun u => State.engineTakes u e) ?_
    cases e <;>
      simp only [State.faultEnding, State.setPhase, State.sendReport, State.setFigures, State.giveSpare, State.returnPages
        , State.setStore, State.setRecoder, State.setController, Recoder.setEngine, Recoder.engine]

/-- R72, R28: all that the read of the next slice can lead to. -/
theorem State.readSlice_spec (s : State) (e : Engine) (j : Job) (w : PassWork) :
    s.ReadsSlice e j w (State.engineGoes e (s.readSlice e j w)) := by
  unfold State.ReadsSlice
  refine ⟨?_, ?_⟩
  · intro h
    have : w.source.slices[w.next]? = none := by simpa using h
    simp [State.readSlice, this, State.engineGoes, State.engineRun]
    rfl
  · intro d hd request
    refine ⟨?_, ?_⟩
    · intro region hr
      simp only [State.readSlice, hd, State.issue]
      have : checkAccess (s.setPhase e (.coding j w)).link.regions request = .ok region := hr
      simp only [request] at this
      rw [this]
      simp [State.engineGoes, State.engineRun]
      rfl
    · intro result region hr
      simp only [State.readSlice, hd, State.issue]
      have : checkAccess (s.setPhase e (.coding j w)).link.regions request = .error (result, region) := hr
      simp only [request] at this
      rw [this]
      have hph : ((s.setPhase e (.coding j w)).recoder.engine e).phase = .coding j w := by cases e <;> rfl
      simp only [State.engineGoes, State.engineRun, State.engineStep, hph]
      exact State.contentFault_spec (s.setPhase e (.coding j w)) e j _

/-- R74: the eight bytes of a picture header while its pass runs. -/
theorem pictureHeader_eq (sequence : Word) (kind slices pass : Nat) :
    pictureHeader sequence kind slices 0 pass =
      [0x5A, 0x17, sequence.extractLsb' 8 8, sequence.extractLsb' 0 8, BitVec.ofNat 8 kind, BitVec.ofNat 8 slices, 0
       , BitVec.ofNat 8 pass] := by
  have low : BitVec.ofNat 8 (sequence.toNat % 65536) = sequence.extractLsb' 0 8 := by
    apply BitVec.eq_of_toNat_eq
    simp
  have high : BitVec.ofNat 8 (sequence.toNat % 65536 / 256) = sequence.extractLsb' 8 8 := by
    apply BitVec.eq_of_toNat_eq
    simp [Nat.shiftRight_eq_div_pow]
    omega
  simp [pictureHeader, beBytes, leBytes, low, high]

/-- R72, R74: all that the beginning of a pass can lead to. -/
theorem State.startPass_spec (s : State) (e : Engine) (j : Job) (pass : Nat) (source : Source) (quants : List Nat)
    (cutoff : Nat) (limits : List (Nat × StopReason)) :
    s.BeginsPass e { j with pass := pass } source quants cutoff limits
      (State.engineGoes e (s.startPass e j pass source quants cutoff limits)) := by
  have hl : (pictureHeader source.sequence (kindCode source.kind) source.slices.length 0 pass).length = 8 := by
    rw [pictureHeader_eq]
    rfl
  have hs := pictureHeader_eq source.sequence (kindCode source.kind) source.slices.length pass
  unfold State.BeginsPass State.startPass
  simp only [hl, State.setScratch]
  rw [List.take_of_length_le (by rw [hl]; decide), hs]
  exact State.readSlice_spec _ e _ _

end Sys2Proof.Machine
end

