-- ==== Sys2Proof/Laws/Rounds.lean ====
section
/-! SUPPORT. What the folds of the interval boundary may change: the return of the jobs' pages, the reports still sent. -/

namespace Sys2Proof.Machine

/-- Returning the pages of jobs is one change of the cell store (R119). -/
theorem State.returnJobs_eq (s : State) (jobs : List Job) :
    s.returnJobs jobs = s.setStore (jobs.foldl (fun st j => st.giveBack j.pages) s.store) := by
  induction jobs generalizing s with
  | nil => rfl
  | cons j js ih => exact ih (s.returnPages j.pages)

/-- Returning the pages of jobs keeps the canonical form of both cell memories. -/
theorem State.returnJobs_wf {s : State} (jobs : List Job) (h : s.store.cells.wf = true ∧ s.store.residue.wf = true) :
    (s.returnJobs jobs).store.cells.wf = true ∧ (s.returnJobs jobs).store.residue.wf = true := by
  induction jobs generalizing s with
  | nil => exact h
  | cons j js ih => exact ih (s := s.returnPages j.pages) (Store.giveBack_wf j.pages h)

/-- Taking the reports still on their way changes nothing but the allocator (R61). -/
theorem State.takeSentReports_eq (s : State) : ∃ a, s.takeSentReports = s.setAllocator a := by
  unfold State.takeSentReports
  generalize s.allocator.reports.filter s.allocator.isCurrent = reports
  generalize ({ s.allocator with
    reports := s.allocator.reports.filter fun r => !s.allocator.isCurrent r } : Allocator) = a
  induction reports generalizing a with
  | nil => exact ⟨a, rfl⟩
  | cons r rs ih => exact ih ((s.setAllocator a).takeCompletionReport r).allocator

/-- Closing an interval changes nothing but the allocator (R57, R61, R62, R64). -/
theorem State.closeInterval_eq (s : State) : ∃ a, s.closeInterval = s.setAllocator a := by
  obtain ⟨a, ha⟩ := s.takeSentReports_eq
  have appends : ∀ (ps : List Program) (a : Allocator), ∃ b,
      ps.foldl (fun s p => State.append s p 8) (s.setAllocator a) = s.setAllocator b := by
    intro ps
    induction ps with
    | nil => exact fun a => ⟨a, rfl⟩
    | cons p ps ih => exact fun a => ih ((s.setAllocator a).append p 8).allocator
  obtain ⟨b, hb⟩ := appends ({ a with inFlight := none } : Allocator).unreported { a with inFlight := none }
  simp only [State.closeInterval, ha]
  change ∃ c, (if (List.foldl _ (s.setAllocator { a with inFlight := none }) _).allocator.current.isNone = true then _ else _) = _
  erw [hb]
  split
  · exact ⟨_, rfl⟩
  · exact ⟨b, rfl⟩

/-- Without an allocation in flight none completes at the boundary (R57). -/
@[simp] theorem State.completeAtBoundary_none {s : State} (h : s.allocator.inFlight = none) :
    s.completeAtBoundary = s := by
  simp [State.completeAtBoundary, h]

end Sys2Proof.Machine
end

