-- ==== Sys2Proof/Tests/Slice0.lean ====
section
/-! SUPPORT. Tests of the model against the manual's worked examples, the checks of WellFormed, the words of the register
window, and a witness for the hypotheses of every statement that has some. -/

namespace Sys2Proof.Tests

open Sys2Proof Sys2Proof.Machine

-- Each theorem here waits for the kernel: taken one after another they need no thread each.
set_option Elab.async false

/-! ### WellFormed refuses -/

/-- Code 0 names no command and is a bad command; code 1 is START (R185). -/
theorem test_wellFormed_badCommand :
    (Instr.badCommand 1).wellFormed = false ∧ (Instr.badCommand 8).wellFormed = false ∧
      (Instr.badCommand 0).wellFormed = true ∧ (Instr.badCommand 9).wellFormed = true := by decide

/-- Operation code 2 is ERASE (R185). -/
theorem test_wellFormed_badOperation :
    (Instr.badOperation 3 .odd 2).wellFormed = false ∧ (Instr.badOperation 3 .odd 3).wellFormed = true := by decide

/-- No access is as long as 2^32 bytes. -/
theorem test_wellFormed_accessCompletion :
    (Instr.accessCompletion 0 (List.replicate 4294967296 0)).wellFormed = false := by
  simp only [Instr.wellFormed, List.length_replicate]; decide

/-! ### The words of the register window, written out from R185 -/

theorem test_word_control :
    decodeRegisterWrite 0x00 1 = some .start ∧ decodeRegisterWrite 0x00 2 = some .stop ∧
      decodeRegisterWrite 0x00 3 = some .halt ∧ decodeRegisterWrite 0x00 4 = some .loadFilters ∧
      decodeRegisterWrite 0x00 5 = some .reloadRegions ∧ decodeRegisterWrite 0x00 7 = some .probe ∧
      decodeRegisterWrite 0x00 8 = some .reset ∧ decodeRegisterWrite 0x00 9 = some (.badCommand 9) := by decide

/-- TEST_PAGES of 5 pages from page 2044: code 6, first page in bits 19..8, count in bits 31..20. -/
theorem test_word_testPages :
    decodeRegisterWrite 0x00 (0b00000000010101111111110000000110 : Word) = some (.testPages 2044 5) := by decide

/-- LOAD of program 4, parity ODD: program in bits 3..0, bit 4 ODD, operation 1 in bits 7..5. -/
theorem test_word_keySelect :
    decodeRegisterWrite 0x18 (0b00110100 : Word) = some (.load 4 .odd) ∧
      decodeRegisterWrite 0x18 (0b01001111 : Word) = some (.erase 15 .even) ∧
      decodeRegisterWrite 0x18 (0b00010000 : Word) = some (.keySelectNone 0 .odd) ∧
      decodeRegisterWrite 0x18 (0b11100010 : Word) = some (.badOperation 2 .even 7) := by decide

theorem test_word_others :
    decodeRegisterWrite 0x08 0x1234 = some (.registerWrite .directoryLow 0x1234) ∧
      decodeRegisterWrite 0x10 0x81 = some (.events 0x81) ∧ decodeRegisterWrite 0x14 1 = some (.eventEnable 1) ∧
      decodeRegisterWrite 0x1C 0xABCD = some (.keyData 0xABCD) ∧ decodeRegisterWrite 0x24 0 = none ∧
      decodeRegisterRead 0x20 = some .keyCheck := by decide

/-! ### Rate allocation: the worked cases of chapter 3 -/

/-- A coding program of a worked case. -/
def coderOf (p : Program) (demand min max room : Nat) : Coder :=
  { program := p, slot := 0, takeNumber := 0, sequence := 0, demand := demand, min := min, max := max, room := room }

/-- Worked case: four coding programs, one hold, S = 12, 3 cells of debt, the rotation pointer at 2. -/
def fourPrograms : Allocation :=
  allocationOf 40 1000 12 3 2
    [coderOf 0 76800000 20 500 3894304, coderOf 1 19200000 20 400 1000000, coderOf 2 4000000 40 400 2000000
     , coderOf 3 32000000 20 400 60000] [{ program := 4, starved := true }] []

theorem test_allocation_four :
    fourPrograms.pool = 984 ∧ fourPrograms.grants.map Grant.budget = [500, 160, 70, 254] ∧ fourPrograms.seed = 0 ∧
      fourPrograms.grants.map Grant.pinned = [true, false, false, false] ∧ fourPrograms.scaled = false := by decide +kernel

/-- Worked case: a fourth pass that clips. -/
theorem test_allocation_clips :
    let a := allocationOf 0 1100 40 0 1 ([110, 220, 238, 240, 1010].zipIdx.map fun x =>
      coderOf (Fin.ofNat 16 x.2) 3200000 10 x.1 8388608)
      ((programs.drop 5).take 10 |>.map fun p => { program := p, starved := true }) []
    a.pool = 1050 ∧ a.grants.map Grant.budget = [110, 220, 238, 240, 242] ∧ a.seed = 0 ∧
      a.grants.map Grant.pinned = [true, true, true, true, false] := by decide +kernel

/-- Worked case: oversubscribed minima. -/
theorem test_allocation_scales :
    let a := allocationOf 0 256 64 128 0 (programs.map fun p => coderOf p 1000 (if p = 0 then 241 else 1) 256 46400) [] []
    a.pool = 64 ∧ a.grants.map Grant.budget = 49 :: List.replicate 15 1 ∧ a.seed = 0 ∧ a.scaled = true := by decide +kernel

/-- Worked case and sequence: program 3's room and delivered list; the tight buffer of program 6; an empty list. -/
theorem test_room :
    roomOf 262144 3 [55000, 120000, 82144] = 60000 ∧
      appendDelivered 3 [55000, 120000, 82144] 46950 = [120000, 82144, 46950] ∧
      roomOf 262144 3 [120000, 82144, 46950] = 133050 ∧ roomOf 262144 3 [46950, 8, 8] = 262128 ∧
      roomOf 65536 4 [8, 30000, 20000, 15400] = 136 ∧ roomOf 65536 4 [] = 65512 ∧
      (coderOf 6 1 12 300 136).hi = 1 ∧ (coderOf 6 1 12 300 136).lo = 1 ∧ (coderOf 6 1 12 300 136).tight = true := by
  decide

/-! ### Recoding: the worked figures of chapters 2 and 4 -/

/-- The three slices of the worked picture. -/
def threeSlices : List SliceDesc :=
  [{ offset := 0, length := 20000, qIn := 10 }, { offset := 20000, length := 30000, qIn := 12 }
   , { offset := 50000, length := 40000, qIn := 16 }]

theorem test_qMean : qMeanOf threeSlices = 14 ∧ 90000 * qMeanOf threeSlices = 1260000 := by decide

/-- R73's table at q_in 10, q_out 19 and d 3. -/
theorem test_requantize :
    requantize 3 10 19 7 = 4 ∧ requantize 3 10 19 (-7) = -4 ∧ requantize 3 10 19 3 = 1 ∧ requantize 3 10 19 1 = 0 := by decide

theorem test_passes :
    pass1Quants threeSlices 90000 254 = [19, 23, 30] ∧ pass2Quants [19, 23, 30] 52300 254 = [21, 25, 33] ∧
      pass2Cutoff 52300 254 = 59 ∧ weightedMean threeSlices [21, 25, 33] = 28 := by decide

/-- Worked figures: a floor result and the spare pool. -/
theorem test_floorOffer :
    floorOffer 160 1000000 9 32500 = .ok (9, 1) ∧ floorOffer 160 1000000 0 32500 = .error .discardedOverrun := by decide

/-- A code table with the lengths of "Worked figures: coding one block". -/
def blockTable : List CodeEntry :=
  (List.range 130).map fun i =>
    { length := if i = 3 then 5 else if i = 0 then 2 else if i = 24 then 6 else if i = 128 then 7 else if i = 129 then 2 else 9
      value := 0 }

theorem test_block :
    ((blockCodes blockTable 0 ((([(0, 4), (1, -1), (5, 1), (10, -1), (40, 20)] : List Coeff).filter fun e => e.1 < 8))).map
      List.length) = [6, 3, 7, 2] ∧ (entryCode blockTable 29 20).length = 25 := by decide

/-- R26, R27: a slice of one block that holds (0, 4) and (1, −1), and the same bytes with the positions in falling order. -/
theorem test_parse :
    parseSlice { offset := 0, length := 11, qIn := 10 } [0xE1, 10, 1, 0, 2, 0, 4, 0, 1, 0xFF, 0xFF] = some [[(0, 4), (1, -1)]] ∧
      parseSlice { offset := 0, length := 11, qIn := 10 } [0xE1, 10, 1, 0, 2, 1, 4, 0, 0, 0xFF, 0xFF] = none := by decide

/-! ### Control words -/

/-- The state of a program-4 record in force with active parity EVEN, and the ODD slot loaded with an old word. -/
def keyed : State :=
  State.reset.setKeys
    ((({ State.reset.keys with
      records := State.reset.keys.records.put 4
        { scrambled := true, inForce := true, active := some .even, pending := none, switchHeld := false } } : Keys).setSlot
      4 .odd (.loaded 7)).setSlot 4 .even (.loaded 9))

/-- The state after some commands. -/
def after (s : State) : List Instr → State
  | [] => s
  | c :: rest =>
    match exec c s with
    | .next t => after t rest
    | _ => s

/-- Worked sequence: loading a word, with a write too early. -/
theorem test_load_sequence :
    let busy := after keyed [.load 4 .odd, .keyData 0x11112222, .keyData 0x33334444, .load 4 .even]
    busy.keys.slot 4 .odd = .installing ∧ busy.keys.busy = true ∧ busy.keys.ignored = true ∧ busy.keys.selParity = .odd ∧
      busy.keys.dataIndex = 2 := by decide +kernel

theorem test_load_ends :
    let done := after keyed [.load 4 .odd, .keyData 0x11112222, .keyData 0x33334444, .installEnd]
    done.keys.slot 4 .odd = .loaded 0x3333444411112222 ∧ done.keys.busy = false ∧ done.keys.result = .loaded ∧
      done.control.events = 0x20 := by decide +kernel

theorem test_load_refused :
    let refused := after keyed [.load 4 .even, .keyData 1, .keyData 2]
    refused.keys.slot 4 .even = .loaded 9 ∧ refused.keys.result = .refusedActive ∧ refused.keys.busy = false := by
  decide +kernel

/-- Worked sequence: a scheduled switch, held once. -/
theorem test_switch :
    let r : ParityRecord :=
      { scrambled := true, inForce := true, active := some .even, pending := some (.odd, 63), switchHeld := false }
    r.decision { even := .loaded 1, odd := .loaded 2 } 61 = r ∧
      (r.decision { even := .loaded 1, odd := .installing } 63).switchHeld = true ∧
      (r.decision { even := .loaded 1, odd := .installing } 63).active = some .even ∧
      (r.decision { even := .loaded 1, odd := .loaded 2 } 64).active = some .odd := by decide

/-- R185: what KEY_CHECK reads after power-on reset. -/
theorem test_keyCheck_reset : (after State.reset [.keyCheck]).control.readData = 0x80000000 := by decide +kernel

/-- Worked example: the units and the residue of a payload of 102 bytes, under a permutation that changes nothing. -/
theorem test_chain :
    (chainUnits id 0 (List.replicate 102 1)).length = 102 ∧
      (chainUnits id 0 (List.replicate 102 1)).drop 96 = List.replicate 6 1 ∧
      (chainUnits id 0x0202020202020202 (List.replicate 16 1)) = List.replicate 8 3 ++ List.replicate 8 2 := by decide

/-! ### STATUS, side messages, regions, the line -/

/-- Worked example: one STATUS read. -/
theorem test_status :
    statusWord { State.reset with
      timer := { Timer.reset with number := 70001 }
      control := { Control.reset with device := .running, inFlight := some .loadFilters, last := some .probe, result := .ok }
      keys := { Keys.reset with busy := true, ignored := true } } = 0x1B0A1171 := by decide +kernel

/-- A filter of the worked example. -/
def filterOf (enabled : Bool) (action : FilterAction) (compare : Nat) (pattern : List Byte) (mask : Long) : Filter :=
  { enabled := enabled, action := action, compare := compare, mask := mask, pattern := pattern }

/-- The filter table of the worked example. -/
def exampleFilters : FilterTable :=
  { broadcast := false, defaultCarry := true, groups := 0x20
    filters := filterOf true .cue 4 [0xC1, 0xA0] 3 :: filterOf true .drop 1 [0x7F] 1 ::
      List.replicate 4 (filterOf false .drop 0 [] 0) }

/-- A side entry of the worked example. -/
def sideOf (target group length : Nat) : SideEntry := { address := 8, length := length, target := target, group := group }

/-- Worked example: classifying one picture's messages. -/
theorem test_classify :
    classifyEarly false (some exampleFilters) 1 (sideOf 1 0 220) = none ∧
      exampleFilters.filtered 220 [0xC1, 0xA0, 0, 0x12] = .carriedCue ∧
      classifyEarly false (some exampleFilters) 1 (sideOf 0xFF 0 90) = some .droppedAddress ∧
      classifyEarly false (some exampleFilters) 1 (sideOf 0xFE 0x45 300) = none ∧
      exampleFilters.filtered 300 [0x7F, 0, 5, 9] = .droppedFilter ∧
      exampleFilters.filtered 3 [0xC1, 0xA0, 1] = .carried ∧
      classifyEarly true (some exampleFilters) 1 (sideOf 1 0 220) = some .droppedLoading := by decide

/-- The region table of the worked example of 9.3. -/
def exampleRegions : List Region :=
  [{ base := 0x00100000, length := 0x00100000, rights := .readWrite, key := 0 }
   , { base := 0x10000000, length := 0x04000000, rights := .readWrite, key := 3 }
   , { base := 0x20000000, length := 0x10000000, rights := .read, key := 3 }
   , { base := 0x30000000, length := 0x01000000, rights := .read, key := 0 }]
    ++ List.replicate 4 { base := 0, length := 0, rights := .none, key := 0 }

/-- What a read or write of `n` bytes is answered. -/
def checked (key : Byte) (kind : AccessKind) (addr : Long) (n : Nat) : Except (AccessResult × Byte) Byte :=
  checkAccess (some exampleRegions) { agent := .intake, kind := kind, addr := addr, length := n, key := some key, data := [] }

/-- Worked example: checks against one table. -/
theorem test_regions :
    checked 3 .read 0x20001000 20000 = .ok 2 ∧ checked 5 .read 0x20001000 20000 = .error (.keyMismatch, 2) ∧
      checked 3 .write 0x20004030 24 = .error (.rights, 2) ∧ checked 3 .read 0x2FFFF000 0x2000 = .error (.noRegion, 0xFF) ∧
      checked 3 .read 0x30000400 300 = .ok 3 ∧ checked 0 .write 0x10000000 576 = .error (.keyMismatch, 1) := by decide

/-- 9.5: the probes against that table. -/
theorem test_probe :
    judgeProbe exampleRegions 0x10000000 96 3 = (0, 1) ∧ judgeProbe exampleRegions 0x10000000 96 4 = (2, 1) ∧
      judgeProbe exampleRegions 0x20000000 4096 3 = (1, 2) ∧ judgeProbe exampleRegions 0x2FFFF000 0x2000 3 = (3, 0xFF) := by
  decide

/-- R152 and the worked example: the dues of a program of three entries with CPI 256. -/
theorem test_dueSlot : dueSlot 256 3 0 = 0 ∧ dueSlot 256 3 1 = 85 ∧ dueSlot 256 3 2 = 170 := by decide

/-- R114: the payloads of a side message of 400 bytes. -/
theorem test_payloads : (payloads (List.replicate 400 0)).map List.length = [192, 192, 16] := by decide +kernel

/-- R70, R113, 11.3: the headers of a hold cell and of a null cell, and the hold picture. -/
theorem test_cells :
    (holdCell 3 9 0x1234 0x00051171).take 16 =
        [0xA6, 0x20, 0x39, 8, 0x11, 0x71, 0x12, 0x34, 0x5A, 0x17, 0x12, 0x34, 3, 0, 0, 0] ∧
      (holdCell 3 9 0x1234 0x00051171).length = 200 ∧ (nullCell 31).take 8 = [0xA6, 0x80, 0, 0, 0, 31, 0, 0] := by
  decide +kernel

/-! ### A running device -/

/-- Settings of a run. -/
def settings : Settings :=
  { directory := 0x100000, programTable := 0x100100, codeTable := 0x102000, filterTable := 0x103000
    regionTable := 0x104000, reportBase := 0x105000, period := 40000, cpi := 256, sMax := 64, kfKey := 24, kfPred := 8
    kfBi := 4, deadZone := 3, reportSlots := 4, firstProgram := 0, lastProgram := 15 }

/-- A picture in a window. -/
def slotA : Slot :=
  { Slot.blank with
    takeNumber := 1, record := 0x10000000, sequence := 7, kind := .pred, sourceSize := 90000, sliceBase := 0x10010000
    slices := threeSlices, qMean := 14, complexity := 1260000 }

/-- A program with a full window. -/
def programA : ProgramCtx :=
  { ProgramCtx.reset with
    state := .running
    fixed := { Fixed.blank with bufferSize := 262144, accessKey := 3, depth := 1, delay := 3 }
    window := { head := 0, count := 4, slots := Vector.replicate 4 slotA }
    takeNumber := 1 }

/-- A fault record request. -/
def requestOf (p : Program) : FaultRequest :=
  { program := p, area := 0x10001000, key := 3, interval := 4
    info :=
      { cause := .recordRead, result := some .bus, record := 0, sequence := 0, addr := 0, length := 1, kind := .read
        region := 1, pass := 0 }
    count := 0, sequences := [] }

/-- A side message that waits. -/
def messageOf (p : Program) : Message := { program := p, key := 3, index := 0, address := 0x30000400, length := 300 }

/-- A device in RUNNING with a flag raised and enabled, an install in flight, a debt of 8, a full window, a full side queue,
two fault record requests, and page 0 with one cell in the sending list. -/
def running : State :=
  { State.reset with
    control :=
      { Control.reset with
        device := .running, settings := some settings, directory := 0x100000, events := 1, enable := 1, line := true }
    timer := { period := 40000, number := 5, running := true }
    link :=
      { regions := some exampleRegions
        accesses :=
          [{ tag := 0, agent := .faultRecord, kind := .write, addr := 0x10001000, length := 64, key := some 3, region := 1
             data := faultRecordBytes (requestOf 0) }]
        nextTag := 1 }
    controller := { Controller.reset with programs := Controller.reset.programs.put 0 programA }
    allocator := { Allocator.reset with debt := Allocator.reset.debt.put 1 8, isOpen := true, current := some fourPrograms }
    keys := (after keyed [.load 4 .odd, .keyData 1, .keyData 2]).keys
    side := { Side.reset with queue := List.replicate 32 (messageOf 0) }
    store :=
      { Store.reset with
        free := (List.range 2048).tail, cells := [(0, List.replicate 200 0)], residue := [(1, List.replicate 200 1)] }
    line :=
      { Line.reset with
        active := true, sending := Line.reset.sending.put 0 { entries := [.stored 0 0], next := 0 }, sendingPages := [0] }
    reporter :=
      { Reporter.reset with
        isOn := true, faultQueue := [requestOf 0, requestOf 0, requestOf 3], faultWrite := some .waiting } }

/-- The running device with a boundary waiting. -/
def waiting : State := running.setPending [.boundary ⟨true, false⟩]

theorem witness_step : ∃ t, step waiting = .next t := ⟨_, rfl⟩

theorem witness_idle : State.reset.pending = [] := rfl

/-- StepKeepsTheLineDriven, StepKeepsTheStoreSound, StepKeepsTheDebtsBounded, StepKeepsTheSideBounded. -/
theorem witness_LineDriven :
    waiting.LineDriven ∧ EventFlag.bit .commandDone &&& running.control.enable ≠ 0 ∧ waiting.StoreSound ∧
      waiting.store.residue = [(1, List.replicate 200 1)] ∧
      waiting.SideBounded := by
  unfold State.LineDriven State.StoreSound State.SideBounded
  decide +kernel

theorem witness_DebtsBounded : waiting.DebtsBounded :=
  ⟨by decide +kernel, by decide +kernel, by decide +kernel⟩

theorem witness_WindowsBounded : waiting.WindowsBounded :=
  ⟨by decide +kernel, fun _ h => by cases h⟩

theorem witness_FaultQueueSound : waiting.FaultQueueSound := ⟨by decide +kernel, by decide +kernel⟩

theorem witness_KeysSound : waiting.KeysSound := by
  have hi : waiting.keys.install = some { program := 4, parity := .odd, word := 0x200000001 } := by decide +kernel
  refine ⟨⟨by decide +kernel, ?_, ?_⟩, by unfold Keys.ClearIsClear; decide +kernel⟩
  · intro p q
    simp only [hi, Option.some.injEq, exists_eq_left']
    cases q
    · revert p; decide +kernel
    · revert p; decide +kernel
  · intro p q
    cases q
    · revert p; decide +kernel
    · revert p; decide +kernel

theorem witness_PagesSound : waiting.PagesSound := by
  refine ⟨?_, List.Pairwise.nil, by decide +kernel, ?_, ?_, fun h => absurd rfl h, ?_, ?_, fun _ => Or.inl rfl, ?_⟩
  · have : waiting.pageHolders.flatten = (List.range 2048).tail ++ [0] := by
      decide +kernel
    rw [this]
    have h : List.range Config.pageCount = 0 :: (List.range 2048).tail := by decide +kernel
    rw [h]
    exact List.perm_append_comm
  · intro e j w h
    cases e <;> rcases h with h | h <;> cases h
  · intro t h; cases h
  · intro h; cases h
  · intro h; cases h
  · intro h; cases h

/-! ### The machine as a whole and the key unit -/

theorem witness_ExecLeavesTheQueue : ∃ t, exec (.events 1) waiting = .next t := ⟨_, rfl⟩

theorem witness_RegisterAndReset (v : Word) :
    (∃ t, exec (.events v) running = .next t) ∧ (∃ t, exec (.eventEnable v) running = .next t) ∧
      (∃ t, exec .powerOnReset running = .next t) ∧ (∃ t, exec .busFunctionReset running = .next t) ∧
      ∃ t, exec .reset running = .next t := ⟨⟨_, rfl⟩, ⟨_, rfl⟩, ⟨_, rfl⟩, ⟨_, rfl⟩, ⟨_, rfl⟩⟩

theorem witness_DirectoryChanges :
    ∃ t, exec (.registerWrite .directoryLow 8) running = .next t ∧ t.control.directory ≠ running.control.directory :=
  ⟨_, rfl, by decide +kernel⟩

theorem witness_IntervalNumberChanges :
    ∃ t, exec .reset running = .next t ∧ t.timer.number ≠ running.timer.number := ⟨_, rfl, by decide +kernel⟩

/-- The first half of a word is staged for the unprotected ODD slot. -/
def staged : State := after keyed [.load 4 .odd, .keyData 1]

theorem witness_KeySlotsChange :
    ∃ t, exec (.keyData 2) staged = .next t ∧ t.keys.slots ≠ staged.keys.slots := ⟨_, rfl, by decide +kernel⟩

/-- The running device with an entry that names a place no build has written. -/
def unwritten : State :=
  running.setLine { running.line with sending := running.line.sending.put 0 { entries := [.stored 3 19], next := 0 } }

theorem witness_OnlyAnUnwrittenPlaceStops : exec (.cellRequest .clean) unwritten = .fault .unwrittenPlace := by
  have h : (match exec (.cellRequest .clean) unwritten with | .fault f => some f | _ => none) = some .unwrittenPlace := by
    decide +kernel
  revert h
  cases exec (.cellRequest .clean) unwritten <;> simp

theorem witness_KeySelect : keyed.keys.busy = false ∧ 2 < (3 : BitVec 3).toNat ∧ running.keys.busy = true := by
  decide +kernel

theorem witness_Erase :
    keyed.keys.busy = false ∧
      ((keyed.keys.records.look 4).inForce = true ∧ (keyed.keys.records.look 4).active = some .even) ∧
      ¬ ((keyed.keys.records.look 4).inForce = true ∧ (keyed.keys.records.look 4).active = some .odd) := by decide +kernel

theorem witness_EraseSound : keyed.keys.Sound := by
  have hi : keyed.keys.install = none := by decide +kernel
  refine ⟨by decide +kernel, ?_, ?_⟩
  · intro p q
    simp only [hi, reduceCtorEq, false_and, exists_false, iff_false]
    cases q
    · revert p; decide +kernel
    · revert p; decide +kernel
  · intro p q
    cases q
    · revert p; decide +kernel
    · revert p; decide +kernel

/-- The key windows of KeyDataLoadsTheSelectedSlot: no LOAD selected, data index 2, 0 and 1. -/
theorem witness_KeyData :
    ¬ (keyed.keys.busy = false ∧ keyed.keys.selOperation = .load ∧ keyed.keys.dataIndex.toNat < 2) ∧
      (let s := after keyed [.load 4 .even, .keyData 1, .keyData 2]
       s.keys.busy = false ∧ s.keys.selOperation = .load ∧ ¬ s.keys.dataIndex.toNat < 2) ∧
      (let s := after keyed [.load 4 .odd]
       s.keys.busy = false ∧ s.keys.selOperation = .load ∧ s.keys.dataIndex = 0) ∧
      (let s := after keyed [.load 4 .even, .keyData 1]
       s.keys.busy = false ∧ s.keys.selOperation = .load ∧ s.keys.dataIndex = 1 ∧
         s.keys.isProtected s.keys.selProgram s.keys.selParity = true) ∧
      staged.keys.busy = false ∧ staged.keys.selOperation = .load ∧ staged.keys.dataIndex = 1 ∧
      staged.keys.isProtected staged.keys.selProgram staged.keys.selParity = false := by decide +kernel

theorem witness_InstallEnd : running.keys.install = some { program := 4, parity := .odd, word := 0x200000001 } := by
  decide +kernel

/-- The running device with a capture of the slot that is INSTALLING. -/
def capturing : State := after running [.keyCheck]

theorem witness_Capture :
    keyed.keys.capture = none ∧ capturing.keys.capture = some { program := 4, parity := .odd, slot := .installing } := by
  decide +kernel

theorem witness_CaptureKept : (∃ t, exec .installEnd capturing = .next t) ∧ ∃ t, exec .captureEnd capturing = .next t :=
  ⟨⟨_, rfl⟩, ⟨_, rfl⟩⟩

/-- A record in force with a pair pending for interval 63. -/
def recordOf (inForce : Bool) : ParityRecord :=
  { scrambled := true, inForce := inForce, active := some .even, pending := some (.odd, 63), switchHeld := false }

/-- A switch is due from its own interval on, up to 2^31 − 1 intervals later, and not one later nor one before. -/
theorem witness_ParityDecision :
    switchDue 63 63 = true ∧ switchDue 62 63 = false ∧ switchDue (63 + 2147483647) 63 = true ∧
      switchDue (63 + 2147483648) 63 = false ∧ (recordOf true).pending = some (.odd, 63) ∧
      ({ even := .empty, odd := .loaded 5 } : KeyPair).slot .odd = .loaded 5 ∧
      (recordOf false).inForce = false ∧ (recordOf true).active ≠ some .odd ∧ (recordOf true).active = some .even := by
  decide

theorem witness_NotLoaded : ∀ w, ({ even := .installing, odd := .empty } : KeyPair).slot .odd ≠ .loaded w := by
  intro w h; cases h

/-! ### The commands -/

theorem witness_RegisterWords :
    (Instr.badCommand 0).wellFormed = true ∧ (Instr.badCommand 0).registerAccess = some (0, 0) ∧
      (Instr.testPages 4095 4095).wellFormed = true ∧
      (Instr.testPages 4095 4095).registerAccess = some (0, 0xFFFFFF06) ∧
      (Instr.badOperation 15 .odd 3).wellFormed = true ∧ (Instr.badOperation 15 .odd 3).registerAccess = some (0x18, 0x7F) := by
  decide

/-- The device with another device state and command in flight. -/
def inState (s : State) (d : DeviceState) (c : Option CommandName) : State :=
  s.setControl { s.control with device := d, inFlight := c }

theorem witness_CommandsAreTurnedAway :
    (inState running .running (some .loadFilters)).control.inFlight = some .loadFilters ∧ running.control.inFlight = none ∧
      running.control.device ∉ [DeviceState.idle] ∧ State.reset.control.inFlight = none ∧
      State.reset.control.device ∉ [DeviceState.running] ∧
      State.reset.control.device ∉ [DeviceState.running, .draining] ∧
      (inState State.reset .testing none).control.device ∉ [DeviceState.idle, .running, .draining] := by decide +kernel

/-- The idle device with a DIRECTORY. -/
def idleAt (d : Long) : State := State.reset.setControl { Control.reset with directory := d }

theorem witness_StartReadsTheDirectory :
    (idleAt 0x100000).control.inFlight = none ∧ (idleAt 0x100000).control.device = .idle ∧
      (idleAt 0x100000).control.directory ≠ 0 ∧ (idleAt 0x100000).control.directory.toNat % 8 = 0 ∧
      (idleAt 0).control.directory = 0 ∧ (idleAt 4).control.directory.toNat % 8 ≠ 0 := by decide +kernel

/-- The starting device with one read of START in flight, at a step. -/
def startingAt (step : StartStep) (n : Nat) : State :=
  { running with
    control := { running.control with device := .starting, inFlight := some .start, start := some (.reading step 0x100000) }
    link := { running.link with
      accesses :=
        [{ tag := 0, agent := .start, kind := .read, addr := 0x100000, length := n, key := none, region := 0xFF, data := [] }] } }

/-- The settings of a directory, least values first, with a line capacity. -/
def directoryBytes (cpi : Byte) : List Byte :=
  [8] ++ zeros 7 ++ [16] ++ zeros 7 ++ [24] ++ zeros 7 ++ [32] ++ zeros 7 ++ [40] ++ zeros 7
    ++ [0x10, 0x27, 0, 0, 0, cpi, 0, 0, 1, 32, 1, 7, 4, 0, 0, 15] ++ zeros 40

theorem witness_StartSteps :
    (∀ step ∈ [StartStep.directory, .regions, .codes, .filters],
      (startingAt step 96).control.start = some (.reading step 0x100000)) ∧
      ((startingAt .directory 96).link.accesses.map fun a => (a.tag, a.agent, a.kind, a.length)) = [(0, .start, .read, 96)] ∧
      (directoryBytes 1).length = 96 ∧ leNat (directoryBytes 1) 0x28 4 = 10000 ∧ leNat (directoryBytes 1) 0x2C 2 = 256 ∧
      leNat (directoryBytes 0) 0x2C 2 = 0 ∧ (readRegions (zeros 192)).isSome = true ∧
      readRegions (zeros 8 ++ [1] ++ zeros 7 ++ [3] ++ zeros 175) = none ∧
      checkAccess (some exampleRegions) (readRequest .start (some 0) settings.codeTable 520) = .ok 0 ∧
      checkAccess (readRegions (zeros 192)) (readRequest .start (some 0) settings.codeTable 520) = .error (.noRegion, 0xFF) ∧
      (readCodeTable (List.replicate 520 16)).isSome = true ∧ readCodeTable (List.replicate 520 17) = none ∧
      checkAccess running.link.regions (readRequest .start (some 0) settings.filterTable 496) = .ok 0 ∧
      (readFilterTable (zeros 496)).isSome = true ∧ readFilterTable ([0, 2] ++ zeros 494) = none := by decide +kernel

/-- R173, R42: settings at the least values go on with the region table, and a line capacity of 0 gives BAD_CONFIG. -/
theorem test_start_settings :
    let ends := fun cpi => after (startingAt .directory 96) [.accessCompletion 0 (directoryBytes cpi)]
    (ends 1).control.start = some (.reading .regions 0x100000) ∧
      ((ends 1).link.accesses.map fun a => (a.addr, a.length, a.key)) = [(32, 192, none)] ∧
      (ends 0).control.start = some (.ended .badConfig) := by decide +kernel

/-- A START that has ended. -/
def started (r : CmdResult) : State :=
  (idleAt 0x100000).setControl
    { (idleAt 0x100000).control with device := .starting, inFlight := some .start, start := some (.ended r), settings := some settings }

theorem witness_StartCompletion :
    (started .ok).control.start = some (.ended .ok) ∧ (started .badConfig).control.start = some (.ended .badConfig) ∧
      CmdResult.badConfig ≠ .ok := by decide +kernel

theorem witness_Halt :
    (inState running .halting (some .halt)).control.device = .halting ∧ State.reset.control.device = .idle ∧
      State.reset.control.inFlight = none ∧ (inState State.reset .idle (some .probe)).control.inFlight = some .probe ∧
      running.control.device ≠ .halting ∧ running.control.device ≠ .idle ∧ running.store.test = none ∧
      running.controller.intake = none := by decide +kernel

/-- R58, R139, R144: a HALT in IDLE, with a PROBE in flight or with none, empties the side queue and clears the debts. -/
theorem test_halt_in_idle :
    ∀ c ∈ [some CommandName.probe, none],
      let s := after (inState running .idle c) [.halt]
      s.side.queue = [] ∧ s.allocator.debt.look 1 = 0 ∧ s.control.inFlight = none ∧
        s.control.result = if c = none then .wrongState else .ok := by decide +kernel

/-- A halting device whose work is done. -/
def halted : State :=
  (inState State.reset .halting (some .halt)).setController { Controller.reset with halt := some .done }

/-- The halting device at a point of the controller's HALT work, with the access of an agent in flight. -/
def haltingAt (h : HaltPhase) (agent : Agent) : State :=
  { inState running .halting (some .halt) with
    controller := { running.controller with halt := some h }
    link := { running.link with
      accesses := running.link.accesses ++
        [{ tag := 1, agent := agent, kind := .write, addr := 0x10000030, length := 24, key := some 3, region := 1, data := [] }]
      nextTag := 2 } }

theorem witness_HaltWork :
    (haltingAt (.outcome [0] 3 true) .halt).controller.halt = some (.outcome (0 :: []) 3 true) ∧
      (haltingAt (.state [0, 15] 0 false) .halt).controller.halt = some (.state (0 :: [15]) 0 false) ∧
      (haltingAt (.waitFinish [0] true) .halt).controller.halt = some (.waitFinish [0] true) ∧
      (haltingAt .done .halt).control.device = .halting ∧
      ((haltingAt .done .halt).link.accesses.map fun a => (a.tag, a.agent, a.kind)) =
        [(0, .faultRecord, .write), (1, .halt, .write)] ∧
      ((haltingAt .done .halt).ctx 0).state ≠ .off ∧ ((haltingAt .done .halt).ctx 0).finish = none ∧
      ((haltingAt .done .halt).ctx 0).window.count ≤ 4 ∧ ((haltingAt .done .halt).ctx 1).state = .off ∧
      (∀ k < 4, checkAccess running.link.regions (running.abandonRequest 0 k) = .ok 1) ∧
      (∀ p, (State.reset.ctx p).state = .off) ∧ (State.haltAdvance false programs State.reset).controller.halt = some .done := by
  decide +kernel

/-- R13, R15: HALT begins with the outcome fields of A. Behind the last name the program is OFF, its window empty, and the first
status part written. -/
theorem test_halt_abandons :
    (let t := after running [.halt]
     t.controller.halt = some (.outcome programs 0 true) ∧
       (t.link.accesses.map fun a => (a.agent, a.addr, a.data.head?)) =
         [(.faultRecord, 0x10001000, some 1), (.halt, 0x10000030, some 9)]) ∧
      (let t := after (haltingAt (.state [0] 3 true) .halt) [.accessCompletion 1 []]
       t.controller.halt = some .status ∧ (t.ctx 0).state = .off ∧ (t.ctx 0).window.count = 0 ∧
         (t.link.accesses.map fun a => (a.agent, a.addr, a.data.take 2)) =
           [(.faultRecord, 0x10001000, [1, 4]), (.status, 0x100140, [0, 0])]) := by decide +kernel

/-- R6, R13: a failed outcome write is noted, and the next name follows. -/
theorem test_halt_notes_failures :
    let t := after (haltingAt (.outcome [0] 1 true) .halt) [.busError 1]
    t.controller.halt = some (.outcome [0] 2 true) ∧ (t.controller.notes.look 0).abandonWriteFault = true := by decide +kernel

theorem witness_HaltCompletes :
    halted.control.device = .halting ∧ halted.controller.halt = some .done ∧ halted.reporter.faultQueue = [] ∧
      halted.reporter.work = none ∧ halted.store.test = none := by decide +kernel

/-- The running device with a filter load that has come so far. -/
def loading (t : TableRead) : State :=
  running.setControl { running.control with inFlight := some .loadFilters, filterLoad := some t }

theorem witness_FilterLoad :
    running.control.inFlight = none ∧ running.control.device = .running ∧ running.control.settings = some settings ∧
      checkAccess running.link.regions (readRequest .filterLoad (some 0) settings.filterTable 496) = .ok 0 ∧
      (let s := running.setLink { running.link with regions := some (exampleRegions.drop 1) }
       checkAccess s.link.regions (readRequest .filterLoad (some 0) settings.filterTable 496) = .error (.noRegion, 0xFF)) ∧
      State.reset.control.settings = none ∧ State.reset.link.regions = none ∧
      (loading (.read (zeros 496))).control.filterLoad = some (.read (zeros 496)) ∧
      (readFilterTable (zeros 496)).isSome = true ∧ readFilterTable ([0, 2] ++ zeros 494) = none ∧
      (loading .failed).control.filterLoad = some .failed := by decide +kernel

/-- The running device with a region reload that has come so far. -/
def reloading (t : TableRead) : State :=
  running.setControl { running.control with inFlight := some .reloadRegions, regionReload := some t }

theorem witness_RegionReload :
    (reloading (.read (zeros 192))).control.regionReload = some (.read (zeros 192)) ∧
      (readRegions (zeros 192)).isSome = true ∧
      readRegions (zeros 8 ++ [1] ++ zeros 7 ++ [3] ++ zeros 175) = none ∧
      (reloading .failed).control.regionReload = some .failed := by decide +kernel

/-- The idle device with a DIRECTORY and a region table. -/
def idleWithTable (d : Long) : State := (idleAt d).setLink { Link.reset with regions := some exampleRegions }

theorem witness_Probe :
    State.reset.link.regions = none ∧ (idleWithTable 0).link.regions ≠ none ∧ (idleWithTable 0).control.directory = 0 ∧
      (idleWithTable 4).control.directory.toNat % 8 ≠ 0 ∧ (idleWithTable 8).control.directory ≠ 0 ∧
      (idleWithTable 8).control.directory.toNat % 8 = 0 ∧ running.control.device ≠ .idle ∧
      (0x100000 : Long) = running.settingsD.directory ∧
      (∀ r ∈ exampleRegions, r.contains 0x2FFFF000 0x2000 = false) ∧
      exampleRegions[2]? = some { base := 0x20000000, length := 0x10000000, rights := .read, key := 3 } ∧
      (∀ j < 2, ∀ q ∈ exampleRegions[j]?, q.contains 0x20000000 4096 = false) := by decide +kernel

/-- A PROBE that has ended. -/
def probed : State := running.setControl { running.control with inFlight := some .probe, probe := some (.ended .ok) }

theorem witness_ProbeEnd : probed.control.probe = some (.ended .ok) := by decide +kernel

/-- The running device with an access of PROBE in flight. -/
def probing (ph : ProbeWork) (kind : AccessKind) : State :=
  { running with
    control := { running.control with inFlight := some .probe, probe := some ph }
    link := { running.link with
      accesses := running.link.accesses ++
        [{ tag := 1, agent := .probe, kind := kind, addr := 0x100040, length := 17, key := none, region := 0xFF, data := [] }]
      nextTag := 2 } }

theorem witness_ProbeAccesses :
    (probing (.reading 0x100000) .read).control.probe = some (.reading 0x100000) ∧
      (probing .writing .write).control.probe = some .writing ∧
      (probing .writing .write).link.accesses.map Access.tag = [0, 1] ∧ running.link.regions = some exampleRegions ∧
      (zeros 17).length = 17 := by decide +kernel

/-- R164: the probe of a range of 4,096 bytes at 0x20000000 with key 3 answers result 1 and index 2. -/
theorem test_probe_answer :
    (after (probing (.reading 0x100000) .read)
        [.accessCompletion 1 (zeros 3 ++ [0x20] ++ zeros 4 ++ [0, 0x10] ++ zeros 6 ++ [3])]).link.accesses.map
      (fun a => (a.addr, a.data)) = [(0x10001000, faultRecordBytes (requestOf 0)), (0x100051, [1, 2])] := by decide +kernel

/-- A test whose first and last page is 2047, before that page is under test. -/
def testing : State := after (idleAt 0x100000) [.testPages 2047 4095]

/-- A test of no page, with its record being written or not attempted. -/
def recording (d : Long) : State := after (idleAt d) [.testPages 5 0]

/-- The testing device with a test that has ended. -/
def tested : State := testing.setTest (testing.store.test.map fun t => { t with phase := .ended .ok })

theorem witness_PageTest :
    2047 < (2048 : BitVec 12).toNat ∧ (2047 : BitVec 12).toNat ≤ 2047 ∧ (1 : BitVec 12) ≠ 0 ∧
      testing.control.device = .testing ∧ (testing.store.test.map PageTest.phase) = some .between ∧
      (let s := after testing [.pageTested .begins]
       s.control.device = .testing ∧
         (s.store.test.map fun t => (t.phase, t.interrupted, t.last)) = some (.pages 2047 .free, false, 2047)) ∧
      ((after (idleAt 0) [.testPages 0 2, .pageTested .begins]).store.test.map fun t => (t.phase, t.last)) =
        some (.pages 0 .free, 1) ∧
      ((recording 0x100000).store.test.map PageTest.phase) = some .writing ∧
      (recording 0x100000).link.accesses.map (fun a => (a.tag, a.agent, a.kind)) = [(0, .pageTest, .write)] ∧
      ((recording 4).store.test.map PageTest.phase) = some (.ended .directoryAccess) ∧
      (tested.store.test.map PageTest.phase) = some (.ended .ok) ∧ tested.control.device = .testing := by decide +kernel

/-- The halting device with a test that has ended, stopped by HALT or not. -/
def testedInHalt (interrupted : Bool) : State :=
  (inState testing .halting (some .halt)).setTest
    (testing.store.test.map fun t => { t with phase := .ended .interrupted, interrupted := interrupted })

theorem witness_PageTestInHalt :
    ∀ b, (testedInHalt b).control.device = .halting ∧
      ((testedInHalt b).store.test.map fun t => (t.phase, t.interrupted)) = some (.ended .interrupted, b) := by
  decide +kernel

/-- R127: a HALT before the first page is under test: nothing tested, and the resume point is the first page. -/
theorem test_halt_between_pages :
    ((after (idleAt 0x100000) [.testPages 7 9, .halt]).store.test.map fun t =>
        (t.tested, t.next, t.interrupted, t.phase)) = some (0, 7, true, .writing) := by decide +kernel

/-- R125, R127: a page found bad leaves the free list for the retired set, and a HALT then stops the test behind it. -/
theorem test_bad_page :
    let s := after (idleAt 0x100000) [.testPages 7 9, .pageTested .begins, .pageTested (.ends false), .halt]
    s.store.retired = [7] ∧ s.store.free.contains 7 = false ∧
      (s.store.test.map fun t => (t.tested, t.retired, t.next)) = some (1, 1, 8) := by decide +kernel

/-! ### The memory link -/

theorem witness_AccessCheck :
    (readRequest .intake (some 3) 0x2FFFF000 0x2000).key = some 3 ∧
      (∀ e ∈ exampleRegions, ¬ (e.length ≠ 0 ∧ e.base.toNat ≤ 0x2FFFF000 ∧
        0x2FFFF000 + 0x2000 ≤ e.base.toNat + e.length.toNat)) ∧
      checked 3 .read 0x2FFFF000 0x2000 = .error (.noRegion, 0xFF) ∧
      checked 3 .read 0x2FFFF000 0x1000 = .ok 2 ∧ checked 5 .read 0x2FFFF000 0x1000 = .error (.keyMismatch, 2) ∧
      checked 3 .write 0x2FFFF000 0x1000 = .error (.rights, 2) ∧ (5 : Byte) ≠ 0 := by decide

/-- The running device with one more read in flight, of an agent. -/
def reading (agent : Agent) : State :=
  running.setLink
    { running.link with
      accesses := running.link.accesses ++
        [{ tag := 1, agent := agent, kind := .read, addr := 0x103000, length := 496, key := some 0, region := 0, data := [] }] }

theorem witness_AccessesEnd :
    (reading .filterLoad).link.accesses =
        running.link.accesses ++
          { tag := 1, agent := .filterLoad, kind := .read, addr := 0x103000, length := 496, key := some 0, region := 0
            data := [] } :: [] ∧
      (∀ x ∈ running.link.accesses, x.tag ≠ 1) ∧ running.link.accesses.map Access.kind = [.write] ∧
      ((reading .regionReload).link.accesses.map Access.agent) = [.faultRecord, .regionReload] := by decide +kernel

/-! ### Windows, intake and allocation -/

theorem witness_Window :
    (3 : Nat) < 4 ∧ programA.window.count = 4 ∧ 1 ≤ { programA.window with count := 1 }.count := by decide +kernel

/-- The running device with an intake of an interval that has gone through all programs. -/
def intakeOf (n : Word) : State :=
  running.setController
    { running.controller with
      intake := some { interval := n, program := 15, takes := 0, halted := false, phase := .allDone } }

theorem witness_IntakeComplete :
    (intakeOf 5).timer.running = true ∧ (intakeOf 5).controller.reports = [] ∧
      (∀ p, ((intakeOf 5).ctx p).finish = none) ∧ (5 : Word) = (intakeOf 5).timer.number ∧
      (4 : Word) ≠ (intakeOf 4).timer.number ∧ (intakeOf 4).control.drainEnding = false ∧
      (intakeOf 4).control.device ≠ .idle := by decide +kernel

theorem witness_IntakePhase :
    (intakeOf 5).controller.intake =
      some { interval := 5, program := 15, takes := 0, halted := false, phase := .allDone } := by decide +kernel

/-- Live values as the intake keeps them. -/
def liveOf (mode : DesiredMode) : Live :=
  { mode := mode, weight := 1, min := 1, max := 256, target := some .odd, interval := 63, cueClear := false }

/-- A program with one picture in its window. -/
def contextOf (state : ProgramState) (mode : DesiredMode) (count : Nat) : ProgramCtx :=
  { programA with
    state := state, live := some (liveOf mode), nextRecord := 0x10002000, window := { programA.window with count := count } }

/-- The running device with its intake at program 1. -/
def takingAt (c : ProgramCtx) (phase : IntakePhase) : State :=
  running.setController
    { running.controller with
      programs := running.controller.programs.put 1 c
      intake := some { interval := 5, program := 1, takes := 1, halted := false, phase := phase } }

/-- A picture record of one slice and no side message, with a link. -/
def recordBytes (link kind : Byte) : List Byte := [1, kind, 1, 0, 7, 0, 0, 0, link] ++ zeros 7 ++ [9] ++ zeros 79

/-- The fields of that record. -/
def recordFields : RecordFields := readRecord (recordBytes 8 1)

/-- The bytes of one slice descriptor with a q_in. -/
def sliceBytes (q : Byte) : List Byte := zeros 4 ++ [11, 0, 0, 0, q] ++ zeros 7

/-- A fault that holds a program. -/
def faultInfo : FaultInfo := (requestOf 0).info

theorem witness_Takes :
    (let s := takingAt (contextOf .running .run 1) .stateRead
     (s.controller.intake.map fun i => (i.halted, decide (i.takes < 2))) = some (false, true) ∧
       (s.ctx 1).state = .running ∧ (s.ctx 1).window.count < 4) ∧
      (let s := takingAt (contextOf .running .run 4) .stateRead
       ¬ (s.ctx 1).window.count < 4) ∧
      byteAt [1] 0 = 1 ∧ byteAt [2] 0 ≠ 1 ∧ (running.ctx 0).state ≠ .off ∧ (running.ctx 1).state = .off ∧
      (readRecord (recordBytes 0 1)).link = 0 ∧ (readRecord (recordBytes 4 1)).link.toNat % 8 ≠ 0 ∧
      recordFields.link ≠ 0 ∧ recordFields.link.toNat % 8 = 0 ∧ 2 < (readRecord (recordBytes 8 3)).kind ∧
      recordFields.kind ≤ 2 ∧ recordFields.sliceCount = 1 ∧ recordFields.sideCount ≤ 8 ∧
      recordFields.sourceSize = 9 ∧ recordFields.sideCount = 0 ∧ 1 ≤ { recordFields with sideCount := 8 }.sideCount ∧
      (∃ d ∈ readSlices 1 (sliceBytes 63), 62 < d.qIn) ∧
      (∀ d ∈ readSlices 1 (sliceBytes 62), 1 ≤ d.qIn ∧ d.qIn ≤ 62 ∧ 5 ≤ d.length) ∧
      (programA.fixed.tolerant = false ∧ { programA.fixed with tolerant := true }.tolerant = true) := by decide +kernel

/-- HaltEndsTheWorkOfEveryBlock: an intake that waits for an access, and one that waits for a finish. -/
theorem witness_HaltInIntake :
    ((takingAt (contextOf .running .run 1) .live).controller.intake.map Intake.phase) = some .live ∧
      ((takingAt (contextOf .running .abort 1) .waitFinish).controller.intake.map Intake.phase) = some .waitFinish ∧
      (takingAt (contextOf .running .run 1) .live).control.device = .running := by decide +kernel

theorem witness_TakePhases :
    ∀ ph ∈ [IntakePhase.recordRead, .sliceTable recordFields, .taken slotA 8, .finishOutcome .malformed 5 recordFields
        , .finishState .malformed 5 recordFields, .faulted faultInfo none, .faulted faultInfo (some (.malformed, 5)), .live
        , .fixed, .abandonOutcome 0, .abandonState 3],
      ((takingAt (contextOf .running .run 1) ph).controller.intake.map fun i => (i.phase, i.halted)) = some (ph, false) := by
  decide +kernel

/-- The device with its intake at program 1, one access of it in flight, the program in a state, and HALT taken or not. -/
def takingWith (state : ProgramState) (halted : Bool) (phase : IntakePhase) (kind : AccessKind) : State :=
  let s := takingAt (contextOf state .run 1) phase
  { s with
    controller := { s.controller with
      intake := some { interval := 5, program := 1, takes := 1, halted := halted, phase := phase }
      halt := if halted then some (.waitIntake false) else none }
    link := { running.link with
      accesses := [{ tag := 0, agent := .intake, kind := kind, addr := 0x10002000, length := 1, key := some 3, region := 1
                     data := [] }] } }

/-- A side entry to be read. -/
def entryToRead : SideEntry := sideOf 1 0 64

/-- The phases in which a take reads. -/
def readingPhases : List IntakePhase :=
  [.stateRead, .recordRead, .sliceTable recordFields, .sideTable recordFields [], .headRead recordFields [] [] entryToRead []]

theorem witness_TakesEnd :
    ∀ ph ∈ readingPhases,
      ((takingWith .held false ph .read).ctx 1).state = .held ∧
        ((takingWith .running true ph .read).controller.intake.map fun i => (i.program, i.phase, i.halted)) = some (1, ph, true) ∧
        (takingWith .running true ph .read).controller.halt = some (.waitIntake false) ∧
        ((takingWith .running false ph .read).controller.intake.map fun i => (i.program, i.phase, i.halted)) =
          some (1, ph, false) ∧ ((takingWith .running false ph .read).ctx 1).state ≠ .held := by decide +kernel

/-- R11, R40: the TAKEN write of a program made HELD meanwhile leaves its window and its next record address. -/
theorem test_held_take :
    let s := after (takingWith .held false (.taken slotA 8) .write) [.accessCompletion 0 []]
    (s.ctx 1).window.count = 1 ∧ (s.ctx 1).nextRecord = 0x10002000 ∧
      (s.controller.intake.map fun i => (i.program, i.phase)) = some (2, .live) := by decide +kernel

/-- R15, R165: a record read that fails after HALT is still handled: the FAULTED attempt, the hold and a fault record. -/
theorem test_halted_take_fails :
    let s := after (takingWith .running true .recordRead .read) [.busError 0]
    (s.link.accesses.map fun a => (a.kind, a.data)) = [(.write, [4])] ∧
      (let t := after s [.accessCompletion (s.link.accesses.map Access.tag).head! []]
       (t.ctx 1).state = .held ∧ t.reporter.faultQueue.length = 4 ∧ t.controller.intake = none) := by decide +kernel

/-- R17 to R19: a TAKEN write that ends windows the picture, and the next record address is the link. -/
theorem test_taken :
    let s := after ((takingAt (contextOf .priming .run 0) (.taken slotA 8)).setLink
      { running.link with
        accesses := [{ tag := 0, agent := .intake, kind := .write, addr := 0x10002000, length := 1, key := some 3, region := 1
                       data := [2] }] })
      [.accessCompletion 0 []]
    (s.ctx 1).window.count = 1 ∧ (s.ctx 1).nextRecord = 8 ∧ (s.ctx 1).window.named 0 = slotA := by decide +kernel

theorem witness_Transitions :
    (∀ mode ∈ [DesiredMode.off, .run, .abort],
      ((takingAt (contextOf .off mode 0) .live).ctx 1).live = some (liveOf mode)) ∧
      ((takingAt (contextOf .held .off 1) .live).ctx 1).finish = none ∧
      (({ contextOf .held .off 1 with
        finish := some { report := { program := 1, slot := 0, takeNumber := 1, interval := 5, body := .finish .ok 1 8 1 1 0 }
                         phase := .state } } : ProgramCtx).finish ≠ none) ∧
      ((takingAt (contextOf .held .off 0) .live).ctx 1).window.count = 0 ∧
      0 < ((takingAt (contextOf .held .off 1) .live).ctx 1).window.count ∧
      (((takingAt (contextOf .held .off 1) .live).ctx 1).window.named 0).faulted = false ∧
      checkAccess running.link.regions
        { agent := .intake, kind := .write, addr := slotA.record + 0x30, length := 24, key := some 3, data := [] } = .ok 1 ∧
      checkAccess running.link.regions
        { agent := .intake, kind := .write, addr := slotA.record, length := 1, key := some 3, data := [3] } = .ok 1 ∧
      (1 : Program) ≠ 15 ∧ (inState running .draining none).control.device = .draining ∧
      running.control.device ≠ .draining ∧ fixedRefusal (zeros 48) = .chainAddress ∧
      fixedRefusal ([8] ++ zeros 7 ++ [8] ++ zeros 7 ++ [0, 0, 1, 0, 15, 4, 8, 1, 1] ++ zeros 23) = .none ∧
      ((takingAt { contextOf .held .off 1 with live := none } .live).ctx 1).live = none := by decide +kernel

/-- The context of a SCRAMBLED program whose live part names a parity target and interval. -/
def pairOf (target : Option Parity) : ProgramCtx :=
  { contextOf .running .run 0 with
    live := some { liveOf .run with target := target, interval := 9 }, fixed := { programA.fixed with scrambled := true } }

/-- IntakeCompletionBeginsTheAllocation: the two ends of R4's order, and a pair that is new, is kept already or has no target. -/
theorem witness_FixedAndPair :
    (let access := zeros 0x14 ++ [(16 : Byte)] ++ zeros 27
     15 < leNat access 0x14 1 ∧ fixedRefusal access = .accessKey) ∧
      (let area := [8] ++ zeros 17 ++ [(1 : Byte), 0, 15, 4, 8, 1, 1] ++ zeros 23
       leNat area 0 8 = 8 ∧ leNat area 0x10 4 = 65536 ∧ leNat area 0x14 1 = 15 ∧ leNat area 0x15 1 = 4 ∧
         leNat area 0x16 1 = 8 ∧ leNat area 0x17 1 = 1 ∧ leNat area 0x18 1 = 1 ∧ leNat area 8 8 = 0 ∧
         fixedRefusal area = .faultArea) ∧
      (pairOf (some .odd)).state ≠ .off ∧ (pairOf (some .odd)).fixed.scrambled = true ∧
      (some Parity.odd, (9 : Word)) ≠ (pairOf (some .odd)).lastPair ∧
      ((takingAt (pairOf (some .odd)) .live).handPair 1).keys.records.look 1 ≠ running.keys.records.look 1 ∧
      (((takingAt (pairOf (some .odd)) .live).handPair 1).ctx 1).lastPair = (some .odd, 9) ∧
      (takingAt (pairOf none) .live).handPair 1 = takingAt (pairOf none) .live := by decide +kernel

/-- R14: a fixed part read that a STOP has overtaken starts no program. -/
theorem test_stop_overtakes_start :
    let read : Access :=
      { tag := 0, agent := .intake, kind := .read, addr := 0x100190, length := 48, key := some 0, region := 0, data := [] }
    let s := (takingAt (contextOf .off .run 0) .fixed).setLink { running.link with accesses := [read] }
    let fields := [0, 0, 0, 0x10] ++ zeros 4 ++ [8] ++ zeros 7 ++ [0, 0, 1, 0, 3, 4, 8, 1, 1] ++ zeros 23
    ((after s [.accessCompletion 0 fields]).ctx 1).state = .priming ∧
      ((after s [.stop, .accessCompletion 0 fields]).ctx 1).state = .off := by decide +kernel

/-- One coding program and a pool of one cell, and the four programs of the worked case. -/
theorem witness_Budgets :
    (allocationOf 0 1 0 0 0 [coderOf 0 5 1 1 8] [] []).pool = 1 ∧ (∀ c ∈ [coderOf 0 5 1 1 8], 1 ≤ c.min) ∧
      4 ≤ fourPrograms.pool := by decide +kernel

/-- BudgetsAndSeedMakeUpThePool: minima above the pool, a seed that is left, a share below its headroom and one at it, and live
values. -/
theorem witness_Shares :
    ([coderOf 0 5 60 60 99999, coderOf 1 5 50 60 99999].map Coder.lo).sum = 110 ∧
      0 < (allocationOf 0 9 0 0 0 [coderOf 0 5 1 1 8] [] []).seed ∧
      ([coderOf 0 5 1 1 8].map Coder.program).Nodup ∧
      ((initialShares 984 [coderOf 0 5 1 1 8, coderOf 1 5 1 9 9999]).1.map fun x => (x.coder.program, x.headroom)) =
        [(0, 0), (1, 8)] ∧
      (contextOf .running .run 1).live = some (liveOf .run) := by decide +kernel

theorem witness_Pool :
    256 ≤ running.settingsD.cpi ∧ running.settingsD.cpi ≤ 8192 ∧ 6 ≤ running.settingsD.sMax ∧
      running.settingsD.sMax ≤ running.settingsD.cpi / 4 ∧ (∀ p, running.allocator.debt.look p ≤ 8) ∧
      running.allocator.debt.look 1 = 8 := by decide +kernel

/-- The running device with an allocation in flight. -/
def allocating : State := running.setAllocator { running.allocator with inFlight := some fourPrograms }

theorem witness_AllocationComplete :
    allocating.allocator.inFlight = some fourPrograms ∧
      ((fourPrograms.grants.map Grant.program) ++ (fourPrograms.holds.map Hold.program)).Nodup ∧
      allocating.controller.statusTodo = [] ∧ allocating.recoder.queue = [] ∧
      checkAccess allocating.link.regions
        { agent := .status, kind := .write, addr := allocating.settingsD.programTable + 0x40, length := 64, key := some 0
          data := [] } = .ok 0 ∧
      (allocating.setController { allocating.controller with statusTodo := [15] }).controller.statusTodo ≠ [] := by
  decide +kernel

/-- The running device with the status part of program 14 being written. -/
def statusAt : State :=
  { running with
    controller := { running.controller with statusTodo := [14, 15] }
    link := { running.link with
      accesses := [{ tag := 0, agent := .status, kind := .write, addr := 0x100840, length := 64, key := some 0, region := 0
                     data := zeros 64 }] } }

theorem witness_StatusRound :
    statusAt.controller.statusTodo = 14 :: [15] ∧ running.controller.statusTodo = [] ∧
      (statusAt.link.accesses.map fun a => (a.tag, a.agent, a.kind)) = [(0, .status, .write)] ∧
      checkAccess running.link.regions (running.statusRequest 15) = .ok 0 ∧
      checkAccess (some []) (running.statusRequest 15) = .error (.noRegion, 0xFF) := by decide +kernel

/-- R6: a status part that is not written is noted, and the next one follows. -/
theorem test_status_round :
    let t := after statusAt [.busError 0]
    (t.controller.notes.look 14).statusUnwritten = true ∧ t.controller.statusTodo = [15] ∧
      t.link.accesses.map (fun a => (a.agent, a.addr)) = [(.status, 0x1008C0)] := by decide +kernel

/-- 11.2: the bytes of a status part of a RUNNING program with a full window. -/
theorem test_status_bytes :
    (statusBytes programA 8 46950 (recordOf true) true).take 24 =
      [2, 4, 8, 1, 0, 1, 0xFF, 0, 0, 0, 0, 0, 0, 0, 0, 0, 0x66, 0xB7, 0, 0, 0, 0, 0, 0] := by decide +kernel

/-- R89: an allocation completion that a boundary meets leaves every job LATE with pass 0, in the order of the queue. -/
theorem test_late_with_pass_0 :
    ((after allocating [.boundary ⟨true, true⟩]).controller.reports.map fun r => (r.program, r.body)) =
      [(0, .finish .late 0 8 1 0 0), (3, .finish .late 0 8 1 0 0), (1, .finish .late 0 8 1 0 0)
       , (2, .finish .late 0 8 1 0 0)] := by decide +kernel

/-- A completion report. -/
def completionOf (p : Program) (n : Word) (size debt : Nat) : CompletionReport :=
  { program := p, interval := n, outcome := .ok, pass := 1, size := size, cells := 1, meanQ := 19, debt := debt }

/-- The running device with completion reports of programs 3 and 1 for an interval. -/
def reported (n : Word) : State :=
  running.setAllocator { running.allocator with reports := [completionOf 3 n 8 0, completionOf 1 n 46950 8] }

theorem witness_CompletionReport :
    (∀ x ∈ [completionOf 3 40 8 0], x.program ≠ 1) ∧
      (reported 40).allocator.isOpen = true ∧ (reported 40).allocator.current = some fourPrograms ∧
      fourPrograms.interval = 40 ∧ fourPrograms.interval ≠ 39 ∧ State.reset.allocator.isOpen = false := by decide +kernel

theorem witness_Boundary :
    running.timer.running = true ∧ running.control.device = .running ∧
      (inState running .draining none).control.device = .draining ∧
      (inState running .draining none).control.notice = false ∧ running.allocator.current = some fourPrograms ∧
      running.allocator.isOpen = true ∧ State.reset.allocator.current = none ∧ running.store.marks = [] ∧
      running.reporter.faultQueue ≠ [] := by decide +kernel

/-- BoundaryClosesTheInterval: the intake that begins or is in flight, reporting on, with and without a report being written, and
off. -/
theorem witness_BoundaryReports :
    running.controller.intake = none ∧ running.control.drainEnding = false ∧
      checkAccess running.link.regions (readRequest .intake (some 0) running.settingsD.programTable 16) = .ok 0 ∧
      (intakeOf 5).controller.intake ≠ none ∧ (inState (intakeOf 5) .running none).timer.running = true ∧
      (inState (intakeOf 5) .running none).control.device = .running ∧ running.reporter.isOn = true ∧
      running.reporter.work = none ∧ running.reporter.waiting = [] ∧ Reporter.reset.isOn = false := by decide +kernel

/-- A draining device whose drain is already ending: the report of its last interval is being written. -/
def drainEnding : State :=
  running.setControl { running.control with device := .draining, notice := true, drainEnding := true }

theorem witness_BoundaryAtDrainEnd :
    drainEnding.timer.running = true ∧ drainEnding.control.device = .draining ∧ drainEnding.control.drainEnding = true ∧
      drainEnding.controller.intake = none := by decide +kernel

/-- Log 21: a boundary that finds the drain ending closes its interval and begins no intake. -/
theorem test_boundary_at_drain_end :
    let t := after drainEnding [.boundary ⟨true, false⟩]
    t.timer.number = 6 ∧ t.control.device = .draining ∧ t.controller.intake = none ∧ t.allocator.current = none := by
  decide +kernel

/-- R175, R180: a boundary begins an intake and a report, and the figures carry the number of the closed interval. -/
theorem test_boundary_report :
    let t := after running [.boundary ⟨true, false⟩]
    (t.reporter.work.map fun w => (w.figures.interval, w.figures.shortfall, w.phase)) = some (5, 1, .consumed) ∧
      (t.controller.intake.map fun i => (i.interval, i.program)) = some (6, 0) ∧
      t.link.accesses.map (fun a => (a.agent, a.addr)) =
        [(.faultRecord, 0x10001000), (.report, 0x10003C), (.intake, 0x100100)] := by decide +kernel

/-- R61: a completion already reported at the boundary counts with its size, and a job that has not reported with 8. -/
theorem test_boundary_appends :
    let s := (reported 40).setController
      { running.controller with programs := running.controller.programs.put 1 (contextOf .running .run 1) }
    let t := after s [.boundary ⟨true, false⟩]
    t.allocator.delivered.look 0 = [8] ∧ t.allocator.delivered.look 1 = [46950] ∧ t.allocator.debt.look 1 = 8 ∧
      t.allocator.reports = [] := by decide +kernel

theorem witness_Complexity : (∀ x ∈ [9, 3, 5], 3 ≤ x) ∧ ∀ x ∈ [9, 3, 5], x ≤ 9 := by decide

/-! ### Recoding -/

theorem witness_Requantize :
    (7 : Nat) ≤ 7 ∧ (1 : Nat) ≤ 62 ∧ (62 : Nat) ≤ 62 ∧ (2047 : Int).natAbs ≤ 2047 ∧ (0 : Int) < 2047 ∧ (-2047 : Int) < 0 ∧
      threeSlices.length = [19, 23, 30].length ∧ 0 < (threeSlices.map SliceDesc.length).sum ∧ 1 * 192 < 90000 ∧
      (∀ x ∈ threeSlices, 1 ≤ x.qIn ∧ x.qIn ≤ 62) ∧ threeSlices[2]? = some { offset := 50000, length := 40000, qIn := 16 } := by
  decide

theorem witness_Parse :
    parseSlice { offset := 0, length := 5, qIn := 62 } [0xE1, 62, 1, 0, 0] = some [[]] ∧
      parseSlice { offset := 0, length := 8, qIn := 1 } [0xE1, 1, 1, 0, 1, 63, 0xFF, 0x07] = some [[(63, 2047)]] := by decide

/-- R26's slice of two blocks, with entries (0, 12), (1, -3) and (5, 1) and with none: its parsed length is 15. -/
theorem witness_SliceFormat :
    let blocks : List (List Coeff) := [[(0, 12), (1, -3), (5, 1)], []]
    4 + (blocks.map fun b => 1 + 3 * b.length).sum = 15 ∧
      (∀ b ∈ blocks, b.length ≤ 64 ∧ (b.map Prod.fst).Pairwise (· < ·) ∧
        ∀ e ∈ b, e.1 ≤ 63 ∧ 1 ≤ e.2.natAbs ∧ e.2.natAbs ≤ 2047) ∧
      parseSlice { offset := 0, length := 15, qIn := 10 } [0xE1, 10, 2, 0, 3, 0, 12, 0, 1, 0xFD, 0xFF, 5, 1, 0, 0] =
        some blocks ∧
      (∀ x ∈ ([[0xE0, 10, 1, 0, 0], [0xE1, 11, 1, 0, 0], [0xE1, 10, 0, 0, 0], [0xE1, 10, 1, 1, 0]] : List (List Byte)),
        parseSlice { offset := 0, length := 5, qIn := 10 } x = none) ∧
      (byteAt [0xE0, 10, 1, 0, 0] 0 ≠ 0xE1 ∧ leNat [0xE1, 11, 1, 0, 0] 1 1 ≠ 10 ∧ byteAt [0xE1, 10, 0, 0, 0] 2 = 0 ∧
        byteAt [0xE1, 10, 1, 1, 0] 3 ≠ 0) := by decide

/-- A job of program 0 with a budget of one cell. -/
def jobOf (pass : Nat) (pages : List Nat) : Job :=
  { program := 0, interval := 5, slot := 0, takeNumber := 1, budget := 1, room := 192, count := 3, pass := pass, draw := 0
    debt := 0, pages := pages }

/-- A pass over the worked picture that has counted so many bytes. -/
def workOf (kind : Kind) (size : Nat) (stopped : Option StopReason) : PassWork :=
  { source := { sequence := 7, kind := kind, sourceSize := 90000, sliceBase := 0x10010000, slices := threeSlices }
    quants := [19, 23, 30], cutoff := 64, limits := [], next := 3, size := size, stopped := stopped }

/-- The running device with one engine in a phase. -/
def engineAt (ph : EnginePhase) : State :=
  running.setRecoder { Recoder.reset with re0 := { phase := ph, scratch := List.replicate 200 1 }, spare := 9 }

theorem witness_PassEnd :
    ((engineAt (.passEnded (jobOf 1 []) (workOf .pred 192 none))).recoder.engine .re0).phase =
        .passEnded (jobOf 1 []) (workOf .pred 192 none) ∧
      (workOf .pred 192 none).stopped = none ∧ (workOf .pred 192 none).size ≤ (jobOf 1 []).budget * 192 ∧
      (workOf .pred 192 none).size ≤ (jobOf 1 []).room ∧ (running.ctx 0).fixed.scrambled = false ∧
      (1 + 0 + 19) / 20 + (0 + 19) / 20 ≤ running.store.free.length ∧
      (jobOf 1 []).budget * 192 < (workOf .pred 193 none).size ∧
      (workOf .pred 8 (some .notAccepted)).stopped ≠ none ∧
      threeSlices.head? = some { offset := 0, length := 20000, qIn := 10 } ∧
      checkAccess running.link.regions
        (readRequest (.engine .re0) (some (running.ctx 0).fixed.accessKey) (0x10010000 + BitVec.ofNat 64 0) 20000) = .ok 1 ∧
      (workOf .pred 193 none).source.kind ≠ .bi ∧ (workOf .bi 193 none).source.kind = .bi ∧
      (engineAt .idle).recoder.queue = [] := by decide +kernel

/-- A slice of one block with the entry (0, 4), its descriptor and its bytes. -/
def smallSlice : SliceDesc := { offset := 0, length := 8, qIn := 10 }

/-- The bytes of that slice. -/
def smallBytes : List Byte := [0xE1, 10, 1, 0, 1, 0, 4, 0]

/-- A pass of these slices, the first one being read, with limits. -/
def readingWork (slices : List SliceDesc) (limits : List (Nat × StopReason)) : PassWork :=
  { source := { sequence := 7, kind := .pred, sourceSize := 90000, sliceBase := 0x10010000, slices := slices }
    quants := [19, 23], cutoff := 64, limits := limits, next := 0, size := 8, stopped := none }

/-- The device with an engine that reads a slice, for a STRICT or a TOLERANT program. -/
def codingAt (tolerant : Bool) (slices : List SliceDesc) (limits : List (Nat × StopReason)) : State :=
  { engineAt (.coding (jobOf 2 []) (readingWork slices limits)) with
    controller := { running.controller with
      programs := running.controller.programs.put 0 { programA with fixed := { programA.fixed with tolerant := tolerant } } }
    link := { running.link with
      accesses := [{ tag := 0, agent := .engine .re0, kind := .read, addr := 0x10010000, length := 8, key := some 3, region := 1
                     data := [] }] } }

theorem witness_SliceRead :
    (∀ b, ((codingAt b [smallSlice] []).recoder.engine .re0).phase = .coding (jobOf 2 []) (readingWork [smallSlice] []) ∧
      ((codingAt b [smallSlice] []).ctx (jobOf 2 []).program).fixed.tolerant = b ∧
      (codingAt b [smallSlice] []).recoder.queue = [] ∧
      ((codingAt b [smallSlice] []).link.accesses.map fun a => (a.tag, a.agent, a.kind, a.length)) =
        [(0, .engine .re0, .read, 8)]) ∧
      smallBytes.length = 8 ∧ parseSlice smallSlice smallBytes = some [[(0, 4)]] ∧ parseSlice smallSlice (zeros 8) = none ∧
      codeSlice blockTable 3 64 [] 8 0 smallSlice 19 [[(0, 4)]] = .ok [0xC5, 19, 1, 0, 0, 0] ∧
      codeSlice blockTable 3 64 [(12, .bufferHold)] 8 0 smallSlice 19 [[(0, 4)]] = .error .bufferHold ∧
      checkAccess running.link.regions
        (readRequest (.engine .re0) (some 3) (0x10010000 + BitVec.ofNat 64 smallSlice.offset) smallSlice.length) = .ok 1 ∧
      (let far : SliceDesc := { smallSlice with offset := 0x04000000 }
       checkAccess running.link.regions
         (readRequest (.engine .re0) (some 3) (0x10010000 + BitVec.ofNat 64 far.offset) far.length) =
           .error (.noRegion, 0xFF)) := by decide +kernel

/-- R88: a slice read that fails ends the job of a STRICT program without a completion report, that of a TOLERANT one held. -/
theorem test_slice_read_fails :
    (after (codingAt false [smallSlice] []) [.busError 0]).allocator.reports = [] ∧
      (after (codingAt false [smallSlice] []) [.busError 0]).controller.reports.map Report.body =
        [.fault { result := .bus, region := 1, kind := .read, addr := 0x10010000, length := 8 } 2] ∧
      (after (codingAt true [smallSlice] []) [.busError 0]).controller.reports.map Report.body =
        [.finish .faultTolerated 2 8 1 0 0] := by decide +kernel

/-- The device with an engine that reads a slice and one job waiting. -/
def codingWith (next : Job) : State :=
  let s := codingAt false [smallSlice] []
  { s with recoder := { s.recoder with queue := [next] } }

theorem witness_EngineTakes :
    (engineAt .idle).recoder.re0.phase = .idle ∧ (codingWith (jobOf 0 [])).recoder.queue = jobOf 0 [] :: [] ∧
      ((codingWith (jobOf 0 [])).recoder.engine .re0).phase ≠ .idle := by decide +kernel

/-- R71: the engine that a fault ending leaves idle begins pass 1 of the job at the head of the queue. -/
theorem test_next_job :
    let t := after (codingWith (jobOf 0 [])) [.busError 0]
    (match t.recoder.re0.phase with
      | .coding j w => some (j.pass, w.next, w.quants)
      | _ => none) = some (1, 0, [62, 62, 62]) ∧
      t.recoder.queue = [] ∧ (t.link.accesses.map fun a => (a.agent, a.addr, a.length)) =
        [(.engine .re0, 0x10010000, 20000)] := by decide +kernel

/-- The device with an accepted result of program 4, SCRAMBLED with EVEN active, and these free pages. -/
def scrambledAt (loaded : Bool) (free : List Nat) : State :=
  { engineAt (.passEnded { jobOf 1 [] with program := 4 } (workOf .pred 192 none)) with
    controller := { running.controller with
      programs := running.controller.programs.put 4 { programA with fixed := { programA.fixed with scrambled := true } } }
    keys := if loaded then keyed.keys else { keyed.keys with slots := Keys.reset.slots }
    store := { running.store with free := free } }

theorem witness_BuildsResult :
    ((scrambledAt true [1]).ctx 4).fixed.scrambled = true ∧
      ((scrambledAt true [1]).keys.records.look 4).inForce = true ∧
      ((scrambledAt true [1]).keys.records.look 4).active = some .even ∧
      ((scrambledAt true [1]).keys.slots.look 4).slot .even = .loaded 9 ∧
      ((scrambledAt false [1]).keys.slots.look 4).slot .even = .empty ∧ (scrambledAt true [1]).recoder.queue = [] ∧
      (1 + 0 + 19) / 20 + (0 + 19) / 20 ≤ (scrambledAt true [1]).store.free.length ∧
      (scrambledAt true []).store.free.length < (1 + 0 + 19) / 20 + (0 + 19) / 20 ∧
      ((Keys.reset.records.look 4).inForce = false) := by decide +kernel

/-- R84, R107: what the end of the pass leads to: a build with the word, KEY_MISSING, STORE_FULL. -/
theorem test_build_key :
    (match ((after (scrambledAt true [1]) [.passEnd .re0]).recoder.re0.phase) with
      | .building j b => some (j.pages, b.key)
      | _ => none) = some ([1], some (.even, 9)) ∧
      (after (scrambledAt false [1]) [.passEnd .re0]).controller.reports.map Report.body =
        [.finish .keyMissing 1 8 1 0 0] ∧
      (after (scrambledAt true []) [.passEnd .re0]).controller.reports.map Report.body =
        [.finish .storeFull 1 8 1 0 0] := by decide +kernel

theorem witness_FloorPassEnd :
    floorOffer 1 1920 9 1920 = .ok (9, 0) ∧ floorOffer 1 3456 9 3456 = .ok (9, 8) ∧
      floorOffer 1 3457 9 3457 = .error .discardedOverrun ∧ floorOffer 1 192 9 193 = .error .bufferHold ∧
      (jobOf 3 []).pass = 3 ∧ (workOf .pred 192 none).size ≤ (jobOf 3 []).room ∧
      ((workOf .pred 192 none).size + 191) / 192 ≤ (jobOf 3 []).budget + (engineAt .idle).recoder.spare + 8 ∧
      (jobOf 3 []).room < (workOf .pred 193 none).size ∧ { jobOf 3 [] with room := 99999 }.room = 99999 ∧
      1 + 9 + 8 < ((workOf .pred 3457 none).size + 191) / 192 ∧ floorOffer (jobOf 3 []).budget (jobOf 3 []).room (engineAt .idle).recoder.spare 192 = .ok (0, 0) ∧
      (workOf .pred 192 (some .bufferHold)).stopped = some .bufferHold ∧
      (workOf .pred 192 (some .overrun)).stopped = some .overrun := by decide +kernel

/-- A build of 200 bytes: one cell in this list and one deferred, in pages 1 and 2. -/
def building : State :=
  engineAt (.building { jobOf 3 [1, 2] with debt := 1 } { sequence := 7, size := 200, meanQ := 28, key := none })

theorem witness_JobCompletion :
    (building.recoder.engine .re0).phase =
        .building { jobOf 3 [1, 2] with debt := 1 } { sequence := 7, size := 200, meanQ := 28, key := none } ∧
      building.recoder.queue = [] ∧ (jobOf 3 [1, 2]).pages.Nodup ∧
      (building.buildCells .re0 (jobOf 3 [1, 2]) { sequence := 7, size := 200, meanQ := 28, key := none }).length = 2 := by
  decide +kernel

/-- JobCompletionLinksItsCells: a build that leaves one of its two pages unwritten. -/
theorem witness_UnwrittenPage :
    let j := { jobOf 3 [1, 2] with budget := 21 }
    let s := engineAt (.building j { sequence := 7, size := 200, meanQ := 28, key := none })
    (s.recoder.engine .re0).phase = .building j { sequence := 7, size := 200, meanQ := 28, key := none } ∧
      (j.pages.take ((j.budget + j.draw + 19) / 20)).drop ((Nat.min (j.budget + j.draw) 2 + 19) / 20) = [2] ∧
      (after s [.jobCompletion .re0]).store.free = s.store.free ++ [2] := by decide +kernel

/-! ### Reports, the side path and the line -/

/-- A report of the job of program 0's picture A, or of an older picture. -/
def reportOf (takeNumber : Word) (body : ReportBody) : Report :=
  { program := 0, slot := 0, takeNumber := takeNumber, interval := 5, body := body }

/-- The running device with a report waiting. -/
def reporting (r : Report) : State := running.setController { running.controller with reports := [r] }

/-- A failure of a slice read. -/
def busFailure : Failure := { result := .bus, region := 1, kind := .read, addr := 0x10010000, length := 20000 }

theorem witness_Reports :
    (reporting (reportOf 1 (.finish .ok 1 8 1 19 0))).reportMatches (reportOf 1 (.finish .ok 1 8 1 19 0)) = true ∧
      (reporting (reportOf 0 (.finish .ok 1 8 1 19 0))).reportMatches (reportOf 0 (.finish .ok 1 8 1 19 0)) = false ∧
      (reporting (reportOf 1 (.fault busFailure 1))).reportMatches (reportOf 1 (.fault busFailure 1)) = true ∧
      (running.ctx 0).finish = none ∧
      checkAccess running.link.regions
        (writeRequest (.finish 0) (some (running.ctx 0).fixed.accessKey) (((running.ctx 0).window.named 0).record + 0x30)
          (outcomeBytes .ok 1 8 1 19 5 ((running.ctx 0).window.named 0).sides)) = .ok 1 ∧
      checkAccess running.link.regions
        (writeRequest (.finish 0) (some (running.ctx 0).fixed.accessKey) ((running.ctx 0).window.named 0).record [faultedCode])
        = .ok 1 := by decide +kernel

/-- The running device with the state write of a finish in flight. -/
def finishing : State :=
  running.setFinish 0 (some { report := reportOf 1 (.finish .ok 1 8 1 19 0), phase := .state })

theorem witness_FinishEnds :
    (finishing.ctx 0).finish = some { report := reportOf 1 (.finish .ok 1 8 1 19 0), phase := .state } ∧
      finishing.controller.halt = none ∧ finishing.controller.intake = none := by decide +kernel

/-- The device with a write of program 0's finish, or of its STRICT fault, in flight, under a table of regions. -/
def handlingAt (body : ReportBody) (phase : FinishPhase) (regions : Option (List Region)) : State :=
  { running.setFinish 0 (some { report := reportOf 1 body, phase := phase }) with
    link := { running.link with
      regions := regions
      accesses := [{ tag := 0, agent := .finish 0, kind := .write, addr := 0x10002000, length := 1, key := some 3, region := 1
                     data := [3] }] } }

theorem witness_FinishWrites :
    (∀ ph ∈ [FinishPhase.outcome, .state, .afterFailure busFailure], ∀ regions ∈ [running.link.regions, some []],
      ((handlingAt (.finish .ok 1 8 1 19 0) ph regions).ctx 0).finish =
          some { report := reportOf 1 (.finish .ok 1 8 1 19 0), phase := ph } ∧
        ((handlingAt (.finish .ok 1 8 1 19 0) ph regions).link.accesses.map fun a => (a.tag, a.agent, a.kind)) =
          [(0, .finish 0, .write)]) ∧
      ((handlingAt (.fault busFailure 2) .strict none).ctx 0).finish =
        some { report := reportOf 1 (.fault busFailure 2), phase := .strict } ∧
      (∀ value ∈ [(3 : Byte), 4], ∀ body ∈ [ReportBody.finish .ok 1 8 1 19 0, .fault busFailure 2],
        checkAccess running.link.regions (running.stateRequest (reportOf 1 body) value) = .ok 1 ∧
        checkAccess (some []) (running.stateRequest (reportOf 1 body) value) = .error (.noRegion, 0xFF)) ∧
      checkAccess (some [])
        (writeRequest (.finish 0) (some (running.ctx 0).fixed.accessKey) (((running.ctx 0).window.named 0).record + 0x30)
          (outcomeBytes .ok 1 8 1 19 5 ((running.ctx 0).window.named 0).sides)) = .error (.noRegion, 0xFF) ∧
      (running.ctx 0).state ≠ .off ∧ (running.ctx 0).state ≠ .held ∧ running.reporter.faultQueue ≠ [] ∧
      Reporter.reset.faultQueue = [] ∧ (running.ctx 0).window.count = 4 := by decide +kernel

/-- R22: DONE follows the outcome fields; a failed write is followed by one FAULTED write, and that by the hold, with A finished. -/
theorem test_finish_writes :
    let outcome := handlingAt (.finish .ok 1 8 1 19 0) .outcome running.link.regions
    ((after outcome [.accessCompletion 0 []]).link.accesses.map Access.data = [[3]]) ∧
      ((after outcome [.busError 0]).link.accesses.map Access.data = [[4]]) ∧
      (let t := after (handlingAt (.finish .ok 1 8 1 19 0) (.afterFailure busFailure) none) [.accessCompletion 0 []]
       (t.ctx 0).state = .held ∧ (t.ctx 0).window.count = 3 ∧ (t.ctx 0).lastOutcome = some .ok ∧ (t.ctx 0).finish = none) := by
  decide +kernel

/-- R23, R37: a STRICT fault keeps the picture in A, marked where FAULTED was written, and holds the program. -/
theorem test_strict_writes :
    let strict := handlingAt (.fault busFailure 2) .strict none
    (let t := after strict [.accessCompletion 0 []]
     (t.ctx 0).state = .held ∧ (t.ctx 0).window.count = 4 ∧ ((t.ctx 0).window.named 0).faulted = true) ∧
      (let t := after strict [.busError 0]
       (t.ctx 0).state = .held ∧ ((t.ctx 0).window.named 0).faulted = false) := by decide +kernel

/-- The running device with the write of its first fault record ended and these requests queued. -/
def faultEnded (queue : List FaultRequest) : State :=
  running.setReporter { running.reporter with faultQueue := queue, faultWrite := some (.ended false) }

theorem witness_FaultRecordWriteEnd :
    (faultEnded [requestOf 0]).reporter.faultWrite = some (.ended false) ∧
      (faultEnded [requestOf 0]).reporter.faultQueue = requestOf 0 :: [] ∧
      (faultEnded [requestOf 0, requestOf 15]).reporter.faultQueue = requestOf 0 :: [requestOf 15] ∧
      checkAccess running.link.regions
        { agent := .faultRecord, kind := .write, addr := (requestOf 15).area, length := 64, key := some (requestOf 15).key
          data := faultRecordBytes (requestOf 15) } = .ok 1 ∧
      checkAccess (some (exampleRegions.drop 2))
        { agent := .faultRecord, kind := .write, addr := (requestOf 15).area, length := 64, key := some (requestOf 15).key
          data := faultRecordBytes (requestOf 15) } = .error (.noRegion, 0xFF) := by decide +kernel

theorem witness_AddressRule :
    (sideOf 15 0 1).target ≤ 15 ∧ (sideOf 0xFF 0 1).target = 0xFF ∧ (sideOf 0xFE 255 1).target = 0xFE ∧
      (sideOf 15 0 1).target ≠ (14 : Program).val := by decide

/-- The classification: a filter that matches behind one that does not, none that matches, none enabled, and a head read. -/
theorem witness_Classify :
    (let e := sideOf 1 0 1
     1 ≤ e.length ∧ e.length ≤ 1024 ∧ e.target ≤ 15 ∧ exampleFilters.accepts 1 e = true ∧
       exampleFilters.accepts 2 e = false ∧ ¬ 1 ≤ (sideOf 1 0 0).length) ∧
      (∃ f ∈ exampleFilters.filters, f.enabled = true) ∧
      (∀ f ∈ ({ exampleFilters with filters := [] } : FilterTable).filters, f.enabled = false) ∧
      (let f := filterOf true .cue 1 [7] 1
       f.enabled = true ∧ f.compare ≤ 1 ∧ (∀ i < f.compare, f.mask.getLsbD i = true → byteAt [7] i = byteAt f.pattern i) ∧
         ¬ ∀ i < f.compare, f.mask.getLsbD i = true → byteAt [8] i = byteAt f.pattern i) ∧
      ((takingWith .running false (.headRead recordFields [] [] entryToRead []) .read).controller.intake.map fun i =>
        (i.program, i.phase)) = some (1, .headRead recordFields [] [] entryToRead []) ∧
      classifyEarly running.control.filterLoad.isSome (some exampleFilters) 1 (sideOf 0xFE 0x45 300) = none := by
  decide +kernel

theorem witness_CueLatch :
    ({ running.side with level := running.side.level.put 0 true } : Side).level.look 0 = true ∧
      running.side.latch.look 0 = false ∧ running.side.level.look 0 = false ∧
      ({ running.side with latch := running.side.latch.put 0 true } : Side).latch.look 0 = true ∧
      Disposition.carried ≠ .carriedCue := by decide +kernel

/-- R135, R136: a matching entry sets the latch, a level of 1 clears it, and no entry sets it while the level is 1. -/
theorem test_cue_level :
    (running.cueMatched 0 .carriedCue).side.latch.look 0 = true ∧
      ((running.cueMatched 0 .carriedCue).side.handLevel 0 true).latch.look 0 = false ∧
      ((running.setSide (running.side.handLevel 0 true)).cueMatched 0 .carriedCue).side.latch.look 0 = false := by
  decide +kernel

/-- A message of the greatest length being built in page 1. -/
def sideBuilding : State :=
  running.setSide
    { Side.reset with
      reserved := [{ message := { messageOf 3 with length := 1024 }, state := .building }]
      build := some { message := { messageOf 3 with length := 1024 }, page := 1, data := some (zeros 1024) } }

theorem witness_SideLink :
    sideBuilding.side.build =
        some { message := { messageOf 3 with length := 1024 }, page := 1, data := some (zeros 1024) } ∧
      (zeros 1024).length ≤ 1024 ∧ ∀ r ∈ sideBuilding.side.reserved, r.state ≠ .waiting := by decide +kernel

/-- The device with another message waiting behind the one being built. -/
def sideWaiting (free : List Nat) (address : Long) : State :=
  { sideBuilding with
    side := { sideBuilding.side with
      reserved := sideBuilding.side.reserved ++ [{ message := { messageOf 2 with address := address }, state := .waiting }] }
    store := { sideBuilding.store with free := free } }

theorem witness_SideGoesOn :
    (sideWaiting [5] 0x30000400).side.stopped = false ∧
      checkAccess running.link.regions (readRequest .side (some 3) 0x30000400 300) = .ok 3 ∧
      checkAccess running.link.regions (readRequest .side (some 3) 0x40000000 300) = .error (.noRegion, 0xFF) := by
  decide +kernel

/-- R141, R143: the next message is read, or dropped for a refused read, or waits for want of a page. -/
theorem test_side_goes_on :
    ((after (sideWaiting [5] 0x30000400) [.sideLink]).side.build.map SideBuild.page) = some 5 ∧
      (let t := after (sideWaiting [5] 0x40000000) [.sideLink]
       t.side.build = none ∧ t.store.free = [5] ∧ t.side.faultNote.look 2 = true ∧ t.side.reserved.length = 1) ∧
      (after (sideWaiting [] 0x30000400) [.sideLink]).side.stopped = true := by decide +kernel

/-- The running device at a slot of its line interval, with entries of program 0 and their next index. -/
def atSlot (slot : Nat) (entries : List Entry) (next : Nat) : State :=
  running.setLine
    { running.line with request := slot, sending := running.line.sending.put 0 { entries := entries, next := next } }

theorem witness_CellRequest :
    State.reset.line.active = false ∧ running.line.active = true ∧
      running.settingsD.cpi ≤ (atSlot 256 [.stored 0 0] 0).line.request ∧
      (∀ p, ((atSlot 255 [.stored 0 0] 1).line.sending.look p).next <
          ((atSlot 255 [.stored 0 0] 1).line.sending.look p).entries.length →
        (atSlot 255 [.stored 0 0] 1).line.request <
          ((atSlot 255 [.stored 0 0] 1).line.sending.look p).next * 256 /
            ((atSlot 255 [.stored 0 0] 1).line.sending.look p).entries.length) ∧
      (let s := atSlot 0 [.stored 0 0] 0
       s.line.request < s.settingsD.cpi ∧ (s.line.sending.look 0).entries[(s.line.sending.look 0).next]? = some (.stored 0 0) ∧
         (s.line.sending.look 0).next * s.settingsD.cpi / (s.line.sending.look 0).entries.length ≤ s.line.request ∧
         (∀ p, p ≠ 0 → (s.line.sending.look p).entries = []) ∧
         s.store.cells.read (placeIndex 0 0) = some (List.replicate 200 0)) ∧
      ((atSlot 128 [.stored 0 0, .produced 0 3 7] 1).line.sending.look 0).entries[1]? = some (.produced 0 3 7) ∧
      1 * 256 / 2 ≤ (atSlot 128 [.stored 0 0, .produced 0 3 7] 1).line.request := by decide +kernel

/-- The running device at slot 0 with a produced entry of programs 3 and 5 each, both due at slot 0. -/
def sharedDue : State :=
  running.setLine
    { Line.reset with
      active := true
      sending := (Line.reset.sending.put 5 { entries := [.produced 5 2 7], next := 0 }).put 3
        { entries := [.produced 3 1 7], next := 0 } }

theorem witness_SharedDueSlot :
    sharedDue.line.active = true ∧ sharedDue.line.request < sharedDue.settingsD.cpi ∧
      (∀ p ∈ [(3 : Program), 5],
        (sharedDue.line.sending.look p).next * sharedDue.settingsD.cpi / (sharedDue.line.sending.look p).entries.length = 0) ∧
      (sharedDue.line.sending.look 3).entries[0]? = some (.produced 3 1 7) ∧
      ∀ p, (sharedDue.line.sending.look p).next < (sharedDue.line.sending.look p).entries.length → (3 : Program) ≤ p := by
  decide +kernel

/-- R153: of two programs that share the smallest due slot the lower one sends its entry. -/
theorem test_shared_due_slot :
    let t := after sharedDue [.cellRequest .clean]
    (t.line.sending.look 3).next = 1 ∧ (t.line.sending.look 5).next = 0 := by decide +kernel

/-- A draining device with the notice given and no fault record waiting. -/
def drained (reportingOn : Bool) : State :=
  { running with
    control := { running.control with device := .draining, notice := true }
    reporter := { Reporter.reset with isOn := reportingOn } }

theorem witness_Stop :
    running.control.inFlight = none ∧ running.control.device = .running ∧ (drained true).timer.running = true ∧
      (drained true).control.device = .draining ∧ (drained true).control.notice = true ∧
      (drained true).control.drainEnding = false ∧ (drained true).reporter.faultQueue = [] ∧
      (∀ p, ((drained true).line.building.look p).sequence = [] ∧ (drained true).line.holding.look p = []) ∧
      (drained true).reporter.isOn = true ∧ (drained false).reporter.isOn = false := by decide +kernel

/-- The report of the drain's last interval, with its index write in flight. -/
def lastReport : ReportWork :=
  { figures := { (running.gatherFigures running.swapLine.2 0 true) with endsDrain := true }, phase := .index }

theorem witness_DrainEnds :
    ((drained true).setReporter { (drained true).reporter with work := some lastReport }).reporter.work = some lastReport ∧
      lastReport.phase = .index ∧ lastReport.figures.endsDrain = true := by decide +kernel

/-- The device with the report of a closed interval being written, one access of it in flight, and the reports that wait. -/
def reportAt (phase : ReportPhase) (kind : AccessKind) (endsDrain : Bool) (waiting : List Figures) : State :=
  { drained true with
    reporter := { Reporter.reset with
      isOn := true, skipped := 65535, waiting := waiting
      work := some { figures := { lastReport.figures with endsDrain := endsDrain }, phase := phase } }
    link := { running.link with
      accesses := [{ tag := 0, agent := .report, kind := kind, addr := 0x10003C, length := 4, key := none, region := 0xFF
                     data := [] }] } }

theorem witness_ReportAccesses :
    (∀ b, ∀ ph ∈ [ReportPhase.consumed, .record, .index],
      (reportAt ph .read b []).reporter.work =
        some { figures := { lastReport.figures with endsDrain := b }, phase := ph } ∧
      (reportAt ph .read b []).control.device = .draining ∧
      ((reportAt ph .read b []).link.accesses.map fun a => (a.tag, a.agent, a.length)) = [(0, .report, 4)]) ∧
      ((reportAt .record .write false []).link.accesses.map Access.kind) = [.write] ∧
      (reportAt .consumed .read false [{ lastReport.figures with endsDrain := false }]).reporter.waiting =
        [{ lastReport.figures with endsDrain := false }] ∧
      (Reporter.reset.writeIndex + 1) % settings.reportSlots = leNat [1, 0, 0, 0] 0 4 ∧
      settings.reportSlots ≤ leNat [4, 0, 0, 0] 0 4 ∧ leNat [3, 0, 0, 0] 0 4 < settings.reportSlots ∧
      checkAccess running.link.regions
        { agent := .report, kind := .write, addr := settings.reportBase, length := 576, key := some 0
          data := reportBytes lastReport.figures 0 } = .ok 0 ∧
      checkAccess (some (exampleRegions.drop 1))
        { agent := .report, kind := .write, addr := settings.reportBase, length := 576, key := some 0
          data := reportBytes lastReport.figures 0 } = .error (.noRegion, 0xFF) ∧
      lastReport.figures.sections.length = 16 := by decide +kernel

/-- R180: a full report table: the report is skipped, counted up to 65,535 and told by REPORT_SKIPPED, and the next one begins. -/
theorem test_report_skipped :
    let s := reportAt .consumed .read false [{ lastReport.figures with endsDrain := false, interval := 9 }]
    let t := after s [.accessCompletion 0 [1, 0, 0, 0]]
    t.reporter.skipped = 65535 ∧ t.control.events.getLsbD 2 = true ∧
      (t.reporter.work.map fun w => (w.figures.interval, w.phase)) = some (9, .consumed) := by decide +kernel

/-- R180: a record written, its index follows and clears the skipped count; the index written, the report is done. -/
theorem test_report_written :
    let t := after (reportAt .record .write false []) [.accessCompletion 0 []]
    t.reporter.skipped = 0 ∧ (t.link.accesses.map fun a => (a.addr, a.data)) = [(0x100038, [1, 0, 0, 0])] ∧
      (after (reportAt .index .write false []) [.accessCompletion 0 []]).reporter.writeIndex = 1 ∧
      (after (reportAt .index .write false []) [.busError 0]).reporter.writeIndex = 0 := by decide +kernel

end Sys2Proof.Tests
end

/-! PROOFS. The pool of an allocation (R47): what takes cells from it, how many each can take, and what is left. -/

namespace Sys2Proof.Machine

/-! ### Counts over the 16 programs -/

theorem length_filter_programs_le (f : Program → Bool) : (programs.filter f).length ≤ 16 :=
  List.length_filter_le f programs

theorem State.codingPrograms_length_le (s : State) : s.codingPrograms.length ≤ 16 :=
  length_filter_programs_le _

theorem State.holdGroup_length_le (s : State) : s.holdGroup.length ≤ 16 := by
  rw [State.holdGroup, List.length_map]
  exact length_filter_programs_le _

theorem sum_map_programs_le (f : Program → Nat) (bound : Nat) (h : ∀ p, f p ≤ bound) :
    (programs.map f).sum ≤ 16 * bound := by
  have hle : ∀ x ∈ programs.map f, x ≤ bound := by
    intro x hx
    obtain ⟨p, -, rfl⟩ := List.mem_map.mp hx
    exact h p
  simpa [programs] using List.sum_le_card_nsmul _ bound hle

/-! ### The side reservation -/

/-- R140: the cells already used and those of the messages moved stay within S_max. -/
theorem reservedCells_reserveFrom_le {sMax used : Nat} (hused : used ≤ sMax) (queue : List Message) :
    used + reservedCells (reserveFrom sMax used queue).1 ≤ sMax := by
  induction queue generalizing used with
  | nil => simpa [reserveFrom, reservedCells] using hused
  | cons m rest ih =>
    by_cases hfits : used + m.cells ≤ sMax
    · have hrest := ih hfits
      simp only [reserveFrom, if_pos hfits, reservedCells, List.map_cons, List.sum_cons] at hrest ⊢
      omega
    · simpa [reserveFrom, if_neg hfits, reservedCells] using hused

theorem State.reservationFor_le (s : State) (coding : List Program) :
    s.reservationFor coding ≤ s.settingsD.sMax := by
  simpa [State.reservationFor] using
    reservedCells_reserveFrom_le (Nat.zero_le s.settingsD.sMax) (s.joinFrom coding s.side.queue).2

/-! ### The pool -/

@[simp] theorem allocationOf_pool (interval : Word) (cpi reserve debts : Nat) (rotation : Fin 16) (coders : List Coder)
    (holds : List Hold) (primed : List Program) :
    (allocationOf interval cpi reserve debts rotation coders holds primed).pool =
      poolOf cpi reserve debts holds.length := by
  simp only [allocationOf]

@[simp] theorem allocationOf_reserve (interval : Word) (cpi reserve debts : Nat) (rotation : Fin 16) (coders : List Coder)
    (holds : List Hold) (primed : List Program) :
    (allocationOf interval cpi reserve debts rotation coders holds primed).reserve = reserve := by
  simp only [allocationOf]

theorem State.allocate_reserve (s : State) : s.allocate.reserve = s.reservationFor s.codingPrograms := by
  simp [State.allocate]

theorem State.allocate_pool (s : State) :
    s.allocate.pool = poolOf s.settingsD.cpi s.allocate.reserve s.totalDebt s.holdGroup.length := by
  simp [State.allocate]

/-- Side traffic may be switched off (S_max = 0); else S_max is at most a quarter of the cells of an interval. -/
theorem State.allocate_reserve_le (s : State)
    (hsMax : s.settingsD.sMax = 0 ∨ (6 ≤ s.settingsD.sMax ∧ s.settingsD.sMax ≤ s.settingsD.cpi / 4)) :
    s.allocate.reserve ≤ s.settingsD.cpi / 4 := by
  have hquarter : s.settingsD.sMax ≤ s.settingsD.cpi / 4 := by omega
  exact s.allocate_reserve ▸ (s.reservationFor_le _).trans hquarter

theorem State.totalDebt_le (s : State) (hdebt : ∀ p, s.allocator.debt.look p ≤ 8) : s.totalDebt ≤ 128 :=
  sum_map_programs_le _ 8 hdebt

/-- With at least 256 cells of which a quarter, 128 and 16 can be taken, nothing is cut off and 48 are left. -/
theorem poolOf_eq_sub_and_ge {cpi reserve debts holds : Nat} (hcpi : 256 ≤ cpi) (hreserve : reserve ≤ cpi / 4)
    (hdebts : debts ≤ 128) (hholds : holds ≤ 16) :
    (poolOf cpi reserve debts holds : Int) = cpi - reserve - debts - holds ∧ 48 ≤ poolOf cpi reserve debts holds := by
  unfold poolOf
  omega

theorem Allocator.completed_debt (a : Allocator) (r : Allocation) (p : Program) :
    (a.completed r).debt.look p = 0 :=
  PerProgram.look_fill 0 p

/-- Settles O43: each of the three amounts taken from the pool is bounded, and 48 cells are more than 16 programs. -/
theorem poolCoversTheCodingPrograms : Obligations.PoolCoversTheCodingPrograms := by
  refine ⟨fun s hcpi _ hsMax hdebt => ?_, Allocator.completed_debt⟩
  have hreserve := s.allocate_reserve_le hsMax
  have hdebts := s.totalDebt_le hdebt
  have hholds := s.holdGroup_length_le
  have hcoding := s.codingPrograms_length_le
  obtain ⟨hpool, hleast⟩ := poolOf_eq_sub_and_ge hcpi hreserve hdebts hholds
  rw [← s.allocate_pool] at hpool hleast
  exact ⟨hpool, hreserve, hdebts, hholds, hleast, hcoding, hcoding.trans (by omega)⟩

end Sys2Proof.Machine

/-! PROOFS. The requantizer and the quantizers of the passes (R72, R73, R77, R78, R87): rounding up, the level of R73 and the ranges. -/

namespace Sys2Proof.Machine

/-! ### Rounding up -/

theorem ceilDiv_le_iff {a b q : Nat} (hb : 0 < b) : ceilDiv a b ≤ q ↔ a ≤ q * b := by
  rw [ceilDiv, ← Nat.ceilDiv_eq_add_pred_div, ceilDiv_le_iff_le_mul hb, mul_comm]

theorem le_ceilDiv_mul {a b : Nat} (hb : 0 < b) : a ≤ ceilDiv a b * b :=
  (ceilDiv_le_iff hb).mp le_rfl

theorem le_ceilDiv_of_mul_le {a b q : Nat} (hb : 0 < b) (h : q * b ≤ a) : q ≤ ceilDiv a b :=
  Nat.le_of_mul_le_mul_right (h.trans (le_ceilDiv_mul hb)) hb

/-! ### The requantizer -/

theorem requantize_of_neg {level : Int} (h : level < 0) (d qIn qOut : Nat) :
    requantize d qIn qOut level = -(requantMagnitude d qIn qOut level.natAbs : Int) :=
  if_pos h

theorem requantize_of_nonneg {level : Int} (h : 0 ≤ level) (d qIn qOut : Nat) :
    requantize d qIn qOut level = requantMagnitude d qIn qOut level.natAbs :=
  if_neg (not_lt.mpr h)

@[simp] theorem natAbs_requantize (d qIn qOut : Nat) (level : Int) :
    (requantize d qIn qOut level).natAbs = requantMagnitude d qIn qOut level.natAbs := by
  rcases lt_or_ge level 0 with h | h
  · rw [requantize_of_neg h, Int.natAbs_neg, Int.natAbs_natCast]
  · rw [requantize_of_nonneg h, Int.natAbs_natCast]

/-- The dead zone is less than the 8 that one unit of magnitude weighs, so it adds nothing where the quantizer is kept. -/
theorem requantMagnitude_self {d q : Nat} (hd : d ≤ 7) (hq : 1 ≤ q) (m : Nat) : requantMagnitude d q q m = m := by
  have hfactor : 8 * m * q + d * q = (8 * m + d) * q := by ring
  rw [requantMagnitude, hfactor, Nat.mul_div_mul_right _ _ hq]
  omega

theorem requantMagnitude_mono {qIn qIn' : Nat} (h : qIn ≤ qIn') (d qOut m : Nat) :
    requantMagnitude d qIn qOut m ≤ requantMagnitude d qIn' qOut m := by
  unfold requantMagnitude
  gcongr

theorem requantMagnitude_le {d qIn qOut : Nat} (hd : d ≤ 7) (hOut : 1 ≤ qOut) (h : qIn ≤ qOut) (m : Nat) :
    requantMagnitude d qIn qOut m ≤ m :=
  calc requantMagnitude d qIn qOut m
    _ ≤ requantMagnitude d qOut qOut m := requantMagnitude_mono h d qOut m
    _ = m := requantMagnitude_self hd hOut m

theorem requantize_self {d q : Nat} (hd : d ≤ 7) (hq : 1 ≤ q) (level : Int) : requantize d q q level = level := by
  rcases lt_or_ge level 0 with h | h
  · rw [requantize_of_neg h, requantMagnitude_self hd hq]
    omega
  · rw [requantize_of_nonneg h, requantMagnitude_self hd hq]
    omega

/-- R73: with the widest level, quantizers and dead zone the numerator stays within 20 bits. -/
theorem requantNumerator_lt {d qIn qOut m : Nat} (hd : d ≤ 7) (hIn : qIn ≤ 62) (hOut : qOut ≤ 62) (hm : m ≤ 2047) :
    8 * m * qIn + d * qOut < 2 ^ 20 := by
  have hlevel : 8 * m * qIn ≤ 8 * 2047 * 62 := by gcongr
  have hzone : d * qOut ≤ 7 * 62 := by gcongr
  omega

theorem mem_keptEntries {d qIn qOut cutoff position : Nat} {block : List Coeff} {level : Int} :
    (position, level) ∈ keptEntries d qIn qOut cutoff block ↔
      level ≠ 0 ∧ position < cutoff ∧ ∃ l, (position, l) ∈ block ∧ level = requantize d qIn qOut l := by
  simp only [keptEntries, List.mem_filter, List.mem_map, bne_iff_ne, decide_eq_true_eq]
  constructor
  · rintro ⟨⟨⟨p, l⟩, ⟨hmem, hcut⟩, heq⟩, hne⟩
    obtain ⟨rfl, rfl⟩ := Prod.mk.inj heq
    exact ⟨hne, hcut, l, hmem, rfl⟩
  · rintro ⟨hne, hcut, l, hmem, rfl⟩
    exact ⟨⟨(position, l), ⟨hmem, hcut⟩, rfl⟩, hne⟩

/-! ### The mean of the quantizers -/

/-- The sum of lengths times quantizers, the numerator of R87's mean. -/
def weightedSum (slices : List SliceDesc) (quants : List Nat) : Nat :=
  ((slices.zip quants).map fun x => x.1.length * x.2).sum

theorem weightedMean_eq (slices : List SliceDesc) (quants : List Nat) :
    weightedMean slices quants = ceilDiv (weightedSum slices quants) (slices.map SliceDesc.length).sum := by
  rw [weightedMean, weightedSum, List.map_zip_eq_zipWith]
  rfl

@[simp] theorem weightedSum_cons (x : SliceDesc) (slices : List SliceDesc) (q : Nat) (quants : List Nat) :
    weightedSum (x :: slices) (q :: quants) = x.length * q + weightedSum slices quants := rfl

theorem weightedSum_between {slices : List SliceDesc} {quants : List Nat} (hlen : slices.length = quants.length)
    {lo hi : Nat} (h : ∀ q ∈ quants, lo ≤ q ∧ q ≤ hi) :
    lo * (slices.map SliceDesc.length).sum ≤ weightedSum slices quants ∧
      weightedSum slices quants ≤ hi * (slices.map SliceDesc.length).sum := by
  induction slices generalizing quants with
  | nil => simp [weightedSum]
  | cons x slices ih =>
    cases quants with
    | nil => simp at hlen
    | cons q quants =>
      obtain ⟨hq, hrest⟩ := List.forall_mem_cons.mp h
      obtain ⟨ihlo, ihhi⟩ := ih (Nat.succ.inj hlen) hrest
      have hlo : lo * x.length ≤ x.length * q := by rw [mul_comm]; gcongr; exact hq.1
      have hhi : x.length * q ≤ hi * x.length := by rw [mul_comm]; gcongr; exact hq.2
      simp only [weightedSum_cons, List.map_cons, List.sum_cons, mul_add]
      exact ⟨by omega, by omega⟩

theorem weightedMean_le_iff {slices : List SliceDesc} (htotal : 0 < (slices.map SliceDesc.length).sum) (quants : List Nat)
    (q : Nat) : weightedMean slices quants ≤ q ↔ weightedSum slices quants ≤ q * (slices.map SliceDesc.length).sum := by
  rw [weightedMean_eq, ceilDiv_le_iff htotal]

theorem weightedMean_between {slices : List SliceDesc} {quants : List Nat} (hlen : slices.length = quants.length)
    (htotal : 0 < (slices.map SliceDesc.length).sum) {lo hi : Nat} (h : ∀ q ∈ quants, lo ≤ q ∧ q ≤ hi) :
    lo ≤ weightedMean slices quants ∧ weightedMean slices quants ≤ hi := by
  obtain ⟨hlo, hhi⟩ := weightedSum_between hlen h
  rw [weightedMean_eq]
  exact ⟨le_ceilDiv_of_mul_le htotal hlo, (ceilDiv_le_iff htotal).mpr hhi⟩

/-! ### The quantizers of the passes -/

theorem pass1Quants_of_fits {slices : List SliceDesc} {sourceSize budget : Nat} (h : sourceSize ≤ budget * 192) :
    pass1Quants slices sourceSize budget = slices.map SliceDesc.qIn :=
  if_pos h

theorem pass1Quants_of_exceeds {slices : List SliceDesc} {sourceSize budget : Nat} (h : budget * 192 < sourceSize) :
    pass1Quants slices sourceSize budget =
      slices.map fun x => Nat.min 62 (ceilDiv (x.qIn * ceilDiv (256 * sourceSize) (budget * 192)) 256) :=
  if_neg (not_le.mpr h)

/-- The factor of a pass is in units of 1/256: one of at least 256 does not lower a quantizer. -/
theorem le_ceilDiv_scaled {factor : Nat} (h : 256 ≤ factor) (q : Nat) : q ≤ ceilDiv (q * factor) 256 :=
  le_ceilDiv_of_mul_le (by omega) (by gcongr)

theorem pass1Quants_range {slices : List SliceDesc} (hslices : ∀ x ∈ slices, x.qIn ≤ 62) {budget : Nat} (hbudget : 1 ≤ budget)
    (sourceSize : Nat) {i : Nat} {x : SliceDesc} (hx : slices[i]? = some x) :
    ∃ q, (pass1Quants slices sourceSize budget)[i]? = some q ∧ x.qIn ≤ q ∧ q ≤ 62 := by
  have hqIn := hslices x (List.mem_of_getElem? hx)
  rcases le_or_gt sourceSize (budget * 192) with hfits | hexceeds
  · exact ⟨x.qIn, by simp [pass1Quants_of_fits hfits, hx], le_rfl, hqIn⟩
  · have hfactor : 256 ≤ ceilDiv (256 * sourceSize) (budget * 192) :=
      le_ceilDiv_of_mul_le (by omega) (by gcongr)
    exact ⟨_, by rw [pass1Quants_of_exceeds hexceeds, List.getElem?_map, hx, Option.map_some],
      Nat.le_min.mpr ⟨hqIn, le_ceilDiv_scaled hfactor _⟩, Nat.min_le_left _ _⟩

theorem pass2Quant_range {q1 : Nat} (h : q1 ≤ 62) (m2 : Nat) : q1 ≤ pass2Quant m2 q1 ∧ pass2Quant m2 q1 ≤ 62 :=
  ⟨Nat.le_min.mpr ⟨h, q1.le_succ.trans (Nat.le_max_left _ _)⟩, Nat.min_le_left _ _⟩

theorem pass2Quants_range {quants : List Nat} {i q1 : Nat} (hq : quants[i]? = some q1) (h : q1 ≤ 62) (b1 budget : Nat) :
    ∃ q, (pass2Quants quants b1 budget)[i]? = some q ∧ q1 ≤ q ∧ q ≤ 62 :=
  ⟨_, by rw [pass2Quants, List.getElem?_map, hq, Option.map_some], pass2Quant_range h _⟩

theorem floorQuants_getElem? {slices : List SliceDesc} {i : Nat} {x : SliceDesc} (hx : slices[i]? = some x) :
    (floorQuants slices)[i]? = some 62 := by
  rw [floorQuants, List.getElem?_map, hx, Option.map_some]

/-- Settles O48: R73's magnitude grows with the input quantizer, and is the level's own where the quantizer is kept; each pass
scales a quantizer by at least 1 and cuts it at 62. -/
theorem requantizationNeverGrowsALevel : Obligations.RequantizationNeverGrowsALevel := by
  refine ⟨fun d qIn qOut level hd _ hOut hOut62 => ⟨natAbs_requantize d qIn qOut level, ?pos, ?neg, ?kept, ?numerator, ?shrinks⟩,
    fun _ _ _ _ _ _ _ => mem_keptEntries, fun _ _ _ => ceilDiv_le_iff,
    fun _ _ _ => ⟨pass1Quants_of_fits, pass1Quants_of_exceeds⟩,
    fun _ quants hlen htotal => ⟨weightedMean_le_iff htotal quants, fun _ _ => weightedMean_between hlen htotal⟩,
    fun slices sourceSize budget b1 hslices hbudget i x hx => ?passes⟩
  case pos =>
    intro hpos
    rw [requantize_of_nonneg hpos.le]
    omega
  case neg =>
    intro hneg
    rw [requantize_of_neg hneg]
    omega
  case kept =>
    rintro rfl
    exact requantize_self hd hOut level
  case numerator => exact fun hlevel hIn => requantNumerator_lt hd hIn hOut62 hlevel
  case shrinks =>
    intro hle
    rw [natAbs_requantize]
    exact requantMagnitude_le hd hOut hle _
  case passes =>
    have hslices62 : ∀ y ∈ slices, y.qIn ≤ 62 := fun y hy => (hslices y hy).2
    obtain ⟨q1, hq1, hqIn, hq62⟩ := pass1Quants_range hslices62 hbudget sourceSize hx
    obtain ⟨q2, hq2, hq12, hq262⟩ := pass2Quants_range hq1 hq62 b1 budget
    exact ⟨⟨q1, hq1, hqIn, hq62⟩, ⟨q2, hq2, hqIn.trans hq12, hq262⟩, floorQuants_getElem? hx,
      hslices62 x (List.mem_of_getElem? hx)⟩

end Sys2Proof.Machine

/-! PROOFS. The key unit (R97, R101, R104): the interval from a switch to a decision, the key result STATUS shows, what ERASE
does to the slots, and the capture a KEY_CHECK read starts. -/

namespace Sys2Proof.Machine

/-! ### Intervals with the wrap of the number -/

theorem switchDue_iff (m n : Word) : switchDue m n = true ↔ (m - n).toNat < 2147483648 := by
  simp [switchDue]

/-- The intervals from `n` to `m` are the remainder of the integer difference. -/
theorem toNat_interval_sub (m n : Word) : ((m - n).toNat : Int) = ((m.toNat : Int) - n.toNat) % 4294967296 := by
  rw [BitVec.toNat_sub]
  omega

/-- Settles O22: `m - n` counts the intervals back from `m` to `n`. -/
theorem switchIsDueWithinHalfTheRange : Obligations.SwitchIsDueWithinHalfTheRange := by
  refine fun m n => ⟨?residue, ?back⟩
  case residue =>
    rw [switchDue_iff, ← toNat_interval_sub]
    omega
  case back =>
    rw [switchDue_iff]
    constructor
    · intro hdue
      refine ⟨(m - n).toNat, by omega, ?_⟩
      rw [BitVec.ofNat_toNat, BitVec.setWidth_eq, BitVec.add_comm, BitVec.sub_add_cancel]
    · rintro ⟨back, hback, rfl⟩
      rw [BitVec.add_comm, BitVec.add_sub_cancel, BitVec.toNat_ofNat]
      omega

/-! ### The key result in STATUS -/

theorem deviceCode_le (d : DeviceState) : deviceCode d ≤ 5 := by
  cases d <;> decide

theorem inFlightCode_le (c : Option CommandName) : inFlightCode c ≤ 3 := by
  unfold inFlightCode
  split <;> decide

theorem completionCode_le (last : Option CommandName) (result : CmdResult) : completionCode last result ≤ 28 := by
  unfold completionCode
  split <;> decide

theorem boolNat_le (b : Bool) : boolNat b ≤ 1 := by
  cases b <;> decide

/-- Three bits from bit 29 up take what stands above a sum of lower fields. -/
theorem extractLsb'_keyResult_of_lt (low key : Nat) (hlow : low < 536870912) :
    (BitVec.ofNat 32 (low + key * 2 ^ 29)).extractLsb' 29 3 = BitVec.ofNat 3 key := by
  apply BitVec.eq_of_toNat_eq
  rw [BitVec.extractLsb'_toNat, BitVec.toNat_ofNat, BitVec.toNat_ofNat, Nat.shiftRight_eq_div_pow]
  omega

/-- R186: the fields below bit 29 do not carry into the key result. -/
theorem statusWord_keyResult (s : State) :
    (statusWord s).extractLsb' 29 3 = BitVec.ofNat 3 (keyResultCode s.keys.result) := by
  have hdevice := deviceCode_le s.control.device
  have hinFlight := inFlightCode_le s.control.inFlight
  have hcompletion := completionCode_le s.control.last s.control.result
  have hignored := boolNat_le s.control.ignored
  have hbusy := boolNat_le s.keys.busy
  have hkeyIgnored := boolNat_le s.keys.ignored
  unfold statusWord
  exact extractLsb'_keyResult_of_lt _ _ (by omega)

/-! ### The key window -/

theorem exec_erase (p : Program) (q : Parity) (s : State) :
    exec (.erase p q) s = .next (s.setKeys (s.keys.eraseSlot p q)) := rfl

theorem Keys.select_accepted {k : Keys} (hbusy : k.busy = false) (p : Program) (q : Parity) (op : KeyOperation)
    (result : KeyResult) :
    k.select p q op result =
      { k with selProgram := p, selParity := q, selOperation := op, dataIndex := 0, staged := 0, ignored := false
               result := result } := by
  simp [Keys.select, hbusy]

theorem Keys.slot_select (k : Keys) (p : Program) (q : Parity) (op : KeyOperation) (result : KeyResult) (p' : Program)
    (q' : Parity) : (k.select p q op result).slot p' q' = k.slot p' q' := by
  unfold Keys.select
  split <;> rfl

theorem Keys.eraseSlot_protected {k : Keys} (hbusy : k.busy = false) {p : Program} {q : Parity}
    (hprotected : k.isProtected p q = true) : k.eraseSlot p q = k.select p q .erase .refusedActive := by
  simp [Keys.eraseSlot, hbusy, hprotected]

theorem Keys.eraseSlot_unprotected {k : Keys} (hbusy : k.busy = false) {p : Program} {q : Parity}
    (hprotected : k.isProtected p q = false) :
    k.eraseSlot p q = (k.select p q .erase .erased).setSlot p q .empty := by
  simp [Keys.eraseSlot, hbusy, hprotected]

/-- R99, R100: a slot is INSTALLING only while KEY_BUSY is 1. -/
theorem Keys.Sound.slot_ne_installing {k : Keys} (h : k.Sound) (hbusy : k.busy = false) (p : Program) (q : Parity) :
    k.slot p q ≠ .installing := by
  intro hslot
  obtain ⟨i, hinstall, -⟩ := (h.installing p q).1 hslot
  have hset := h.busy
  simp [hbusy, hinstall] at hset

/-- Settles O17, by whether the slot is protected. -/
theorem eraseEmptiesAnUnprotectedSlot : Obligations.EraseEmptiesAnUnprotectedSlot := by
  intro p q s hbusy
  rw [← Keys.isProtected_iff, Bool.not_eq_true]
  refine ⟨fun hprotected => ?refused, fun hprotected => ?erased, fun hsound => hsound.slot_ne_installing hbusy⟩
  case refused =>
    refine ⟨_, exec_erase p q s, ?_⟩
    rw [Keys.eraseSlot_protected hbusy hprotected, Keys.select_accepted hbusy]
    exact ⟨statusWord_keyResult _, rfl⟩
  case erased =>
    refine ⟨_, exec_erase p q s, ?_⟩
    rw [Keys.eraseSlot_unprotected hbusy hprotected]
    refine ⟨Keys.slot_setSlot_same _ p q _, ?_, fun p' q' hne => ?_, ?_⟩
    · rw [Keys.select_accepted hbusy]
      exact statusWord_keyResult _
    · exact (Keys.slot_setSlot_ne _ hne _).trans (Keys.slot_select ..)
    · rw [Keys.select_accepted hbusy]
      rfl

/-! ### Check captures -/

theorem State.setControl_setKeys (s : State) (c : Control) (k : Keys) :
    (s.setControl c).setKeys k = { s with control := c, keys := k } := rfl

/-- R101. By rewriting, as a `rfl` has the kernel compute with the powers of two of the holding's word. -/
theorem exec_keyCheck (s : State) :
    exec .keyCheck s = .next { s with
      control := { s.control with readData := holdingWord s.keys.holding }
      keys := s.keys.startCapture } := by
  change execKeyCheck s = _
  rw [execKeyCheck, State.setControl_keys, State.setControl_setKeys]

theorem Keys.startCapture_of_none {k : Keys} (h : k.capture = none) :
    k.startCapture = { k with capture := some { program := k.selProgram, parity := k.selParity
                                                slot := k.slot k.selProgram k.selParity } } := by
  simp [Keys.startCapture, h]

theorem Keys.startCapture_of_some {k : Keys} {x : Capture} (h : k.capture = some x) : k.startCapture = k := by
  simp [Keys.startCapture, h]

@[simp] theorem Keys.setSlot_capture (k : Keys) (p : Program) (q : Parity) (x : KeySlot) :
    (k.setSlot p q x).capture = k.capture := rfl

@[simp] theorem Keys.select_capture (k : Keys) (p : Program) (q : Parity) (op : KeyOperation) (result : KeyResult) :
    (k.select p q op result).capture = k.capture := by
  unfold Keys.select
  split <;> rfl

@[simp] theorem Keys.eraseSlot_capture (k : Keys) (p : Program) (q : Parity) :
    (k.eraseSlot p q).capture = k.capture := by
  unfold Keys.eraseSlot
  split
  · simp
  · split <;> simp

theorem installEnd_keeps_capture {s t : State} (h : exec .installEnd s = .next t) :
    t.keys.capture = s.keys.capture := by
  change execInstallEnd s = .next t at h
  unfold execInstallEnd at h
  split at h
  next =>
    cases h
    rfl
  next =>
    cases h
    rfl

/-- R102: the end of a capture leaves the holding it sampled. -/
theorem exec_captureEnd_of_some {s : State} {x : Capture} (h : s.keys.capture = some x) :
    exec .captureEnd s = .next (s.setKeys { s.keys with holding := x.holding, capture := none }) := by
  change execCaptureEnd s = _
  simp only [execCaptureEnd, h]

/-- R101: a KEY_SELECT write, an ERASE and an install end leave the capture as it is, in flight or none. -/
theorem keyWindow_keeps_capture {s t : State} {c : Instr} {p : Program} {q : Parity} {code : BitVec 3}
    (hc : c = .keySelectNone p q ∨ c = .load p q ∨ c = .erase p q ∨ c = .badOperation p q code ∨ c = .installEnd)
    (h : exec c s = .next t) : t.keys.capture = s.keys.capture := by
  obtain rfl | rfl | rfl | rfl | rfl := hc
  · cases h
    exact s.keys.select_capture ..
  · cases h
    exact s.keys.select_capture ..
  · cases h
    exact s.keys.eraseSlot_capture ..
  · cases h
    exact s.keys.select_capture ..
  · exact installEnd_keeps_capture h

/-- Settles O20: the read by whether a capture is in flight, the later commands by what each leaves of the capture. -/
theorem keyCheckReadStartsOneCapture : Obligations.KeyCheckReadStartsOneCapture := by
  refine ⟨fun s hnone => ?starts, fun s x hsome => ?keeps, fun s t x c p q code hsome hc h => ?later,
    fun s t x hsome hslot h => ?sampled⟩
  case starts => rw [exec_keyCheck, Keys.startCapture_of_none hnone]
  case keeps => rw [exec_keyCheck, Keys.startCapture_of_some hsome]
  case later => rw [keyWindow_keeps_capture hc h, hsome]
  case sampled =>
    rw [exec_captureEnd_of_some hsome] at h
    cases h
    change x.slot.state = .installing
    rw [hslot]
    rfl

end Sys2Proof.Machine

/-! PROOFS. The arbiter (R152, R153) and how a request is answered (R121, R122, R146, R154): when a program is eligible, which
eligible program is chosen, and the cell each request gets. -/

namespace Sys2Proof.Machine

/-! ### Eligible programs -/

theorem Sending.due_eq_some_iff {q : Sending} {cpi slot d : Nat} :
    q.due cpi slot = some d ↔
      q.next < q.entries.length ∧ dueSlot cpi q.entries.length q.next ≤ slot ∧
        dueSlot cpi q.entries.length q.next = d := by
  simp [Sending.due]

theorem Sending.due_eq_none_iff {q : Sending} {cpi slot : Nat} :
    q.due cpi slot = none ↔ (q.next < q.entries.length → slot < dueSlot cpi q.entries.length q.next) := by
  simp [Sending.due]

/-! ### The choice among due slots -/

theorem earlier_eq_some {a b : Option (Nat × Program)} {x : Nat × Program} (h : earlier a b = some x) :
    a = some x ∨ b = some x := by
  unfold earlier at h
  split at h
  · exact .inr h
  · exact .inl h
  · split at h
    · exact .inr h
    · exact .inl h

theorem earlier_keeps {d : Nat} {p : Program} {b : Option (Nat × Program)} (h : ∀ x, b = some x → d ≤ x.1) :
    earlier (some (d, p)) b = some (d, p) := by
  cases b with
  | none => rfl
  | some x => exact if_neg (not_lt.mpr (h x rfl))

theorem earlier_replaces {a : Option (Nat × Program)} {d : Nat} {p : Program} (h : ∀ x, a = some x → d < x.1) :
    earlier a (some (d, p)) = some (d, p) := by
  cases a with
  | none => rfl
  | some x => exact if_pos (h x rfl)

/-- R153: the best choice among some programs, each with its due slot where it is eligible. -/
def earliest (due : Program → Option Nat) (best : Option (Nat × Program)) (ps : List Program) : Option (Nat × Program) :=
  ps.foldl (fun best p => earlier best ((due p).map fun d => (d, p))) best

theorem Line.choose_eq_earliest (l : Line) (cpi slot : Nat) :
    l.choose cpi slot = (earliest (fun p => (l.sending.look p).due cpi slot) none programs).map Prod.snd := rfl

theorem earliest_append (due : Program → Option Nat) (best : Option (Nat × Program)) (ps qs : List Program) :
    earliest due best (ps ++ qs) = earliest due (earliest due best ps) qs :=
  List.foldl_append

theorem earliest_eq_some {due : Program → Option Nat} {best : Option (Nat × Program)} {ps : List Program}
    {d : Nat} {p : Program} (h : earliest due best ps = some (d, p)) : best = some (d, p) ∨ p ∈ ps ∧ due p = some d := by
  induction ps generalizing best with
  | nil => exact .inl h
  | cons q rest ih =>
    obtain hbest | ⟨hmem, hdue⟩ := ih h
    · obtain hbest | hq := earlier_eq_some hbest
      · exact .inl hbest
      · obtain ⟨d', hdue, hpair⟩ := Option.map_eq_some_iff.mp hq
        cases hpair
        exact .inr ⟨List.mem_cons_self, hdue⟩
    · exact .inr ⟨List.mem_cons_of_mem _ hmem, hdue⟩

/-- A choice stays while no later program has a smaller due slot. -/
theorem earliest_keeps {due : Program → Option Nat} {d : Nat} {p : Program} {ps : List Program}
    (h : ∀ p' ∈ ps, ∀ d', due p' = some d' → d ≤ d') : earliest due (some (d, p)) ps = some (d, p) := by
  induction ps with
  | nil => rfl
  | cons q rest ih =>
    have hq : earlier (some (d, p)) ((due q).map fun d' => (d', q)) = some (d, p) := by
      refine earlier_keeps fun x hx => ?_
      obtain ⟨d', hdue, rfl⟩ := Option.map_eq_some_iff.mp hx
      exact h q List.mem_cons_self d' hdue
    rw [earliest, List.foldl_cons, hq]
    exact ih fun p' hp' => h p' (List.mem_cons_of_mem _ hp')

/-- Over ascending programs the lowest of those with the smallest due slot is chosen: the programs before it are all due later,
so it replaces their choice, and no program after it is due before. -/
theorem earliest_of_first {due : Program → Option Nat} {ps : List Program} {d : Nat} {p : Program}
    (hps : ps.Pairwise (· < ·)) (hmem : p ∈ ps) (hdue : due p = some d)
    (hfirst : ∀ p' d', due p' = some d' → d < d' ∨ d = d' ∧ p ≤ p') : earliest due none ps = some (d, p) := by
  obtain ⟨before, after, rfl⟩ := List.append_of_mem hmem
  have hbefore : ∀ x, earliest due none before = some x → d < x.1 := by
    rintro ⟨d', p'⟩ hx
    obtain hnone | ⟨hmem', hdue'⟩ := earliest_eq_some hx
    · cases hnone
    · have hlt : p' < p := (List.pairwise_append.mp hps).2.2 p' hmem' p List.mem_cons_self
      obtain hlt' | ⟨-, hle⟩ := hfirst p' d' hdue'
      · exact hlt'
      · exact absurd hlt (not_lt.mpr hle)
  have hchosen : earlier (earliest due none before) ((due p).map fun d => (d, p)) = some (d, p) := by
    rw [hdue]
    exact earlier_replaces hbefore
  rw [earliest_append, earliest, List.foldl_cons, hchosen]
  refine earliest_keeps fun p' _ d' hdue' => ?_
  obtain hlt | ⟨heq, -⟩ := hfirst p' d' hdue'
  · exact hlt.le
  · exact heq.le

theorem programs_ascending : programs.Pairwise (· < ·) := by decide

theorem mem_programs : ∀ p : Program, p ∈ programs := by decide

theorem Line.choose_eq_none {l : Line} {cpi slot : Nat} (h : ∀ p, (l.sending.look p).due cpi slot = none) :
    l.choose cpi slot = none := by
  rw [l.choose_eq_earliest, Option.map_eq_none_iff, Option.eq_none_iff_forall_ne_some]
  rintro ⟨d, p⟩ hchosen
  obtain hnone | ⟨-, hdue⟩ := earliest_eq_some hchosen
  · cases hnone
  · simp [h p] at hdue

theorem Line.choose_eq_some {l : Line} {cpi slot d : Nat} {p : Program} (hdue : (l.sending.look p).due cpi slot = some d)
    (hfirst : ∀ p' d', (l.sending.look p').due cpi slot = some d' → d < d' ∨ d = d' ∧ p ≤ p') :
    l.choose cpi slot = some p := by
  rw [l.choose_eq_earliest, earliest_of_first programs_ascending (mem_programs p) hdue hfirst]
  rfl

/-! ### The answer to a request -/

theorem exec_cellRequest (check : ReadCheck) (s : State) : exec (.cellRequest check) s = execCellRequest check s := rfl

/-- R145: an INACTIVE line answers and counts nothing. -/
theorem cellRequest_of_inactive {s : State} (h : s.line.active = false) (check : ReadCheck) :
    exec (.cellRequest check) s = .next (s.setLine { s.line with out := none }) := by
  simp [exec_cellRequest, execCellRequest, h]

/-- R153: a slot of CPI or above, or one at which no program is eligible, is taken by a null cell. -/
theorem cellRequest_of_no_program {s : State} (hactive : s.line.active = true)
    (h : s.settingsD.cpi ≤ s.line.request ∨ s.line.choose s.settingsD.cpi s.line.request = none) (check : ReadCheck) :
    exec (.cellRequest check) s = .next (s.setLine { s.line with request := s.line.request + 1 }).sendNull := by
  rw [exec_cellRequest, execCellRequest, if_pos hactive]
  by_cases hslot : s.line.request < s.settingsD.cpi
  · have hchoose := h.resolve_left (not_le.mpr hslot)
    simp only [if_pos hslot, hchoose]
  · exact if_neg hslot

/-- R146, R154: the state in which the request has taken its slot and a program its next entry. -/
def State.takeEntry (s : State) (p : Program) : State :=
  s.setLine { s.line with
    request := s.line.request + 1
    sending := s.line.sending.put p { s.line.sending.look p with next := (s.line.sending.look p).next + 1 } }

/-- R153, R154: the chosen program sends its next entry. -/
theorem cellRequest_of_choose {s : State} {p : Program} {entry : Entry} (hactive : s.line.active = true)
    (hslot : s.line.request < s.settingsD.cpi) (hchoose : s.line.choose s.settingsD.cpi s.line.request = some p)
    (hentry : (s.line.sending.look p).entries[(s.line.sending.look p).next]? = some entry) (check : ReadCheck) :
    exec (.cellRequest check) s = (s.takeEntry p).sendEntry check entry := by
  rw [exec_cellRequest, execCellRequest, if_pos hactive]
  simp only [if_pos hslot, hchoose, hentry]
  rfl

theorem State.sendEntry_produced (s : State) (check : ReadCheck) (p : Program) (count : BitVec 4) (sequence : BitVec 16) :
    s.sendEntry check (.produced p count sequence) =
      .next (s.setLine { s.line with out := some (holdCell p count sequence s.timer.number) }) := rfl

/-- R121: a stored cell is sent as written, and counted where its read was corrected. -/
theorem State.sendEntry_stored {s : State} {page place : Nat} {cell : List Byte}
    (hcell : s.store.cells.read (placeIndex page place) = some cell) {check : ReadCheck} (hcheck : check ≠ .uncorrectable) :
    s.sendEntry check (.stored page place) = .next { s with
      store := { s.store with correctable := s.store.correctable + (if check = .corrected then 1 else 0) }
      line := { s.line with out := some cell } } := by
  simp only [State.sendEntry, hcell]
  cases check with
  | clean => rfl
  | corrected => rfl
  | uncorrectable => exact absurd rfl hcheck

theorem State.sendEntry_uncorrectable {s : State} {page place : Nat} {cell : List Byte}
    (hcell : s.store.cells.read (placeIndex page place) = some cell) :
    s.sendEntry .uncorrectable (.stored page place) = .next (s.storeError page) := by
  simp only [State.sendEntry, hcell]

theorem State.mem_storeError_marks {s : State} {page x : Nat} :
    x ∈ (s.storeError page).store.marks ↔ x = page ∨ x ∈ s.store.marks :=
  mem_insertPage

/-- Settles O59, by whether the line is active, whether some program is eligible, and the entry the chosen program sends. -/
theorem cellRequestsAreAnsweredInDueOrder : Obligations.CellRequestsAreAnsweredInDueOrder := by
  intro s check
  refine ⟨fun hinactive => cellRequest_of_inactive hinactive check, fun hactive => ⟨fun hnone => ?null, ?entry⟩⟩
  case null =>
    refine cellRequest_of_no_program hactive (hnone.imp_right fun hnever => ?_) check
    exact Line.choose_eq_none fun p => Sending.due_eq_none_iff.mpr (hnever p)
  case entry =>
    intro p entry q due hslot hentry hdue hfirst
    have hnext : q.next < q.entries.length := (List.getElem?_eq_some_iff.mp hentry).1
    have hchoose : s.line.choose s.settingsD.cpi s.line.request = some p := by
      refine Line.choose_eq_some (Sending.due_eq_some_iff.mpr ⟨hnext, hdue, rfl⟩) fun p' d' hdue' => ?_
      obtain ⟨hnext', hle, rfl⟩ := Sending.due_eq_some_iff.mp hdue'
      exact hfirst p' hnext' hle
    rw [cellRequest_of_choose hactive hslot hchoose hentry check]
    refine ⟨?produced, ?stored⟩
    case produced =>
      rintro p' count sequence rfl
      exact State.sendEntry_produced ..
    case stored =>
      rintro page place cell rfl hcell
      refine ⟨fun hcheck => State.sendEntry_stored (s := s.takeEntry p) hcell hcheck, ?_⟩
      rintro rfl
      exact ⟨(s.takeEntry p).storeError page, State.sendEntry_uncorrectable hcell, fun _ => State.mem_storeError_marks, rfl⟩

end Sys2Proof.Machine

/-! PROOFS. The check of a host memory access (R160): the entry that judges a range, the three steps against it, and what is
issued. -/

namespace Sys2Proof.Machine

/-! ### The entry that judges a range -/

theorem Region.contains_iff {r : Region} {addr : Long} {length : Nat} :
    r.contains addr length = true ↔
      r.length ≠ 0 ∧ r.base.toNat ≤ addr.toNat ∧ addr.toNat + length ≤ r.base.toNat + r.length.toNat := by
  simp [Region.contains, ← BitVec.toNat_inj]

theorem Region.contains_eq_false_iff {r : Region} {addr : Long} {length : Nat} :
    r.contains addr length = false ↔
      ¬ (r.length ≠ 0 ∧ r.base.toNat ≤ addr.toNat ∧ addr.toNat + length ≤ r.base.toNat + r.length.toNat) := by
  rw [← Region.contains_iff, Bool.not_eq_true]

/-- The converse of `findRegion_some`: the search stops at the first containing entry. -/
theorem findRegion_of_first {addr : Long} {length : Nat} {r : Region} (hr : r.contains addr length = true) :
    ∀ {table : List Region} {i k : Nat}, table[k]? = some r →
      (∀ m < k, ∀ q, table[m]? = some q → q.contains addr length = false) →
        findRegion addr length i table = some (i + k, r)
  | head :: rest, i, 0, hk, _ => by
    obtain rfl : head = r := by simpa using hk
    simp [findRegion, hr]
  | head :: rest, i, k + 1, hk, hbefore => by
    have hhead : head.contains addr length = false := hbefore 0 k.succ_pos head rfl
    have hrest : findRegion addr length (i + 1) rest = some (i + 1 + k, r) :=
      findRegion_of_first hr hk fun m hm q hq => hbefore (m + 1) (Nat.succ_lt_succ hm) q hq
    simp [findRegion, hhead, hrest, Nat.add_right_comm, Nat.add_assoc]

/-! ### The three steps of the check -/

theorem Rights.admits_iff {rights : Rights} {kind : AccessKind} :
    rights.admits kind = true ↔ rights = .readWrite ∨ (rights = .read ∧ kind = .read) := by
  cases rights <;> cases kind <;> simp [Rights.admits]

section
variable {table : List Region} {key : Byte} {kind : AccessKind} {addr : Long} {length i : Nat} {r : Region}

/-- R160 step 1 fails. -/
theorem checkTable_of_not_found (hfind : findRegion addr length 0 table = none) :
    checkTable table key kind addr length = .error (.noRegion, noIndex) := by
  simp only [checkTable, hfind]

/-- R160 step 2 fails. -/
theorem checkTable_of_other_key (hfind : findRegion addr length 0 table = some (i, r)) (hkey : r.key ≠ 0 ∧ r.key ≠ key) :
    checkTable table key kind addr length = .error (.keyMismatch, BitVec.ofNat 8 i) := by
  simp only [checkTable, hfind, if_pos hkey]

/-- Past R160 step 2 the rights of the entry decide. -/
theorem checkTable_of_key (hfind : findRegion addr length 0 table = some (i, r)) (hkey : r.key = 0 ∨ r.key = key) :
    checkTable table key kind addr length =
      if r.rights.admits kind then .ok (BitVec.ofNat 8 i) else .error (.rights, BitVec.ofNat 8 i) := by
  have hpasses : ¬ (r.key ≠ 0 ∧ r.key ≠ key) := by tauto
  simp only [checkTable, hfind, if_neg hpasses]

end

/-! ### The check of a request -/

theorem checkAccess_of_table {req : Request} {key : Byte} (hkey : req.key = some key) (table : List Region) :
    checkAccess (some table) req = checkTable table key req.kind req.addr req.length := by
  simp only [checkAccess, hkey]

theorem checkAccess_of_no_table {req : Request} {key : Byte} (hkey : req.key = some key) :
    checkAccess none req = if key = 0 then .ok noIndex else .error (.noRegion, noIndex) := by
  simp only [checkAccess, hkey]

/-- Settles O38, by whether a table is in force, and with one by the entry the search stops at, its key and its rights. -/
theorem accessCheckTakesTheFirstContainingRegion : Obligations.AccessCheckTakesTheFirstContainingRegion := by
  refine ⟨fun table req key hkey => ?table, fun req hkey => ?keyZero, fun req key hkey hne => ?otherKey,
    fun s req => ⟨fun _ _ hrefused => State.issue_of_error hrefused, fun _ hadmitted => State.issue_of_ok hadmitted⟩⟩
  case table =>
    rw [checkAccess_of_table hkey]
    refine ⟨fun hnone => ?noEntry, fun i e he hcontains hbefore => ?entry⟩
    case noEntry =>
      exact checkTable_of_not_found (findRegion_none.mpr fun e he => Region.contains_eq_false_iff.mpr (hnone e he))
    case entry =>
      have hfind : findRegion req.addr req.length 0 table = some (i, e) := by
        simpa using findRegion_of_first (i := 0) (Region.contains_iff.mpr hcontains) he
          fun j hj q hq => Region.contains_eq_false_iff.mpr (hbefore j hj q hq)
      refine ⟨checkTable_of_other_key hfind, fun hpasses => ?_⟩
      rw [checkTable_of_key hfind hpasses, ← Rights.admits_iff]
      exact ⟨fun hadmits => if_pos hadmits, fun hrefuses => if_neg hrefuses⟩
  case keyZero =>
    rw [checkAccess_of_no_table hkey, if_pos rfl]
    rfl
  case otherKey =>
    rw [checkAccess_of_no_table hkey, if_neg hne]
    rfl

end Sys2Proof.Machine

/-! PROOFS. What leaves the control unit as it is (R183): the work of the recoder, the side path, the cell store, the line,
the allocator and the report unit's accesses touches neither the event registers nor the interrupt line. -/

namespace Sys2Proof.Machine

/-- A fold of steps that each leave the control unit leaves it. -/
theorem foldl_control {α : Type} {f : State → α → State} (hf : ∀ s a, (f s a).control = s.control) (l : List α) (s : State) :
    (l.foldl f s).control = s.control := by
  induction l generalizing s with
  | nil => rfl
  | cons a l ih => exact (ih (f s a)).trans (hf s a)

/-! ### The endings of the recoder's work -/

@[simp] theorem State.returnPages_control (s : State) (pages : List Nat) : (s.returnPages pages).control = s.control := rfl

@[simp] theorem State.dropAccesses_control (s : State) (p : Agent → Bool) : (s.dropAccesses p).control = s.control := rfl

@[simp] theorem State.returnJobs_control (s : State) (jobs : List Job) : (s.returnJobs jobs).control = s.control := by
  rw [State.returnJobs_eq, State.setStore_control]

@[simp] theorem State.dropJobs_control (s : State) : s.dropJobs.control = s.control := rfl

@[simp] theorem State.haltRecoder_control (s : State) : s.haltRecoder.control = s.control :=
  s.returnJobs_control s.recoder.jobs

@[simp] theorem State.lateJobs_control (s : State) : s.lateJobs.control = s.control :=
  foldl_control (f := State.lateJob) (fun _ _ => rfl) s.recoder.jobs s

@[simp] theorem State.stopLine_control (s : State) : s.stopLine.control = s.control := rfl

/-! ### An engine's work -/

@[simp] theorem State.setPhase_control (s : State) (e : Engine) (ph : EnginePhase) :
    (s.setPhase e ph).control = s.control := rfl

@[simp] theorem State.setScratch_control (s : State) (e : Engine) (bytes : List Byte) :
    (s.setScratch e bytes).control = s.control := rfl

@[simp] theorem State.giveSpare_control (s : State) (n : Nat) : (s.giveSpare n).control = s.control := rfl

@[simp] theorem State.setFigures_control (s : State) (p : Program) (f : JobFigures) :
    (s.setFigures p f).control = s.control := rfl

@[simp] theorem State.sendReport_control (s : State) (j : Job) (body : ReportBody) :
    (s.sendReport j body).control = s.control := rfl

@[simp] theorem State.sendCompletion_control (s : State) (j : Job) (o : Outcome) (size cells meanQ debt : Nat) :
    (s.sendCompletion j o size cells meanQ debt).control = s.control := rfl

@[simp] theorem State.linkCells_control (s : State) (j : Job) (c : JobCells) : (s.linkCells j c).control = s.control := rfl

@[simp] theorem State.holdEnding_control (s : State) (e : Engine) (j : Job) (o : Outcome) :
    (s.holdEnding e j o).control = s.control := by
  simp [State.holdEnding]

@[simp] theorem State.faultEnding_control (s : State) (e : Engine) (j : Job) (f : Failure) :
    (s.faultEnding e j f).control = s.control := by
  simp [State.faultEnding]

@[simp] theorem State.readSlice_control (s : State) (e : Engine) (j : Job) (w : PassWork) :
    (s.readSlice e j w).1.control = s.control := by
  unfold State.readSlice
  split
  · rfl
  · exact State.issue_control _ _

@[simp] theorem State.startPass_control (s : State) (e : Engine) (j : Job) (pass : Nat) (source : Source)
    (quants : List Nat) (cutoff : Nat) (limits : List (Nat × StopReason)) :
    (s.startPass e j pass source quants cutoff limits).1.control = s.control :=
  State.readSlice_control _ _ _ _

@[simp] theorem State.takeJob_control (s : State) (e : Engine) : (s.takeJob e).1.control = s.control := by
  unfold State.takeJob
  split
  · exact State.startPass_control _ _ _ _ _ _ _ _
  · rfl

@[simp] theorem State.contentFault_control (s : State) (e : Engine) (j : Job) (f : Failure) :
    (s.contentFault e j f).1.control = s.control := by
  unfold State.contentFault
  split <;> simp

@[simp] theorem State.codeNext_control (s : State) (e : Engine) (j : Job) (w : PassWork) (data : List Byte) :
    (s.codeNext e j w data).1.control = s.control := by
  unfold State.codeNext
  split
  · rfl
  · split
    · simp
    · split
      · rfl
      · exact State.readSlice_control _ _ _ _

@[simp] theorem State.engineStep_control (s : State) (e : Engine) (r : Reply) :
    (s.engineStep e r).1.control = s.control := by
  unfold State.engineStep
  split <;> simp

@[simp] theorem State.engineRun_control (e : Engine) (fuel : Nat) (c : Cont) :
    (State.engineRun e fuel c).control = c.1.control := by
  induction fuel generalizing c with
  | zero => rfl
  | succ fuel ih =>
    obtain ⟨s, reply⟩ := c
    cases reply with
    | none => rfl
    | some r => exact (ih (s.engineStep e r)).trans (s.engineStep_control e r)

@[simp] theorem State.engineGoes_control (e : Engine) (c : Cont) : (State.engineGoes e c).control = c.1.control :=
  State.engineRun_control e _ c

@[simp] theorem State.engineReply_control (s : State) (e : Engine) (r : Reply) :
    (s.engineReply e r).control = s.control := by
  simp [State.engineReply]

@[simp] theorem State.engineTakes_control (s : State) (e : Engine) : (s.engineTakes e).control = s.control := by
  simp [State.engineTakes]

@[simp] theorem State.endsHeld_control (s : State) (e : Engine) (j : Job) (o : Outcome) :
    (s.endsHeld e j o).control = s.control := by
  simp [State.endsHeld]

@[simp] theorem State.startBuild_control (s : State) (e : Engine) (j : Job) (w : PassWork) :
    (s.startBuild e j w).control = s.control := by
  unfold State.startBuild
  dsimp only
  split
  · exact State.endsHeld_control _ _ _ _
  · split
    · exact State.endsHeld_control _ _ _ _
    · rfl

@[simp] theorem State.startPass2_control (s : State) (e : Engine) (j : Job) (w : PassWork) :
    (s.startPass2 e j w).control = s.control := by
  simp [State.startPass2]

@[simp] theorem State.startFloor_control (s : State) (e : Engine) (j : Job) (w : PassWork) :
    (s.startFloor e j w).control = s.control := by
  simp [State.startFloor]

@[simp] theorem State.completeJob_control (s : State) (e : Engine) (j : Job) (b : Build) :
    (s.completeJob e j b).control = s.control := by
  simp [State.completeJob]

/-! ### The side path -/

@[simp] theorem State.sideFault_control (s : State) : s.sideFault.control = s.control := by
  unfold State.sideFault
  split <;> rfl

@[simp] theorem State.startSideBuild_control (fuel : Nat) (s : State) : (s.startSideBuild fuel).control = s.control := by
  induction fuel generalizing s with
  | zero => rfl
  | succ fuel ih =>
    unfold State.startSideBuild
    split
    · rfl
    · split
      · rfl
      · split
        · dsimp only
          split
          · rename_i e
            exact (congrArg (·.1.control) e).symm.trans (State.issue_control _ _)
          · rename_i e
            rw [ih, State.sideFault_control]
            exact (congrArg (·.1.control) e).symm.trans (State.issue_control _ _)
        · rfl

@[simp] theorem State.nextSideBuild_control (s : State) : s.nextSideBuild.control = s.control :=
  State.startSideBuild_control _ s

@[simp] theorem State.sideReply_control (s : State) (r : Reply) : (s.sideReply r).control = s.control := by
  unfold State.sideReply
  split
  · rfl
  · rfl
  · simp

@[simp] theorem State.linkSideBuild_control (s : State) (b : SideBuild) (data : List Byte) :
    (s.linkSideBuild b data).control = s.control := rfl

@[simp] theorem State.endReservation_control (s : State) : s.endReservation.control = s.control := by
  unfold State.endReservation
  cases s.side.build <;> rfl

@[simp] theorem State.haltSide_control (s : State) : s.haltSide.control = s.control := s.endReservation_control

/-! ### The allocation -/

@[simp] theorem State.joinAndReserve_control (s : State) (coding : List Program) :
    (s.joinAndReserve coding).control = s.control :=
  foldl_control (f := State.storeSides) (fun _ _ => rfl) _ s

@[simp] theorem State.applyAllocation_control (s : State) (a : Allocation) :
    (s.applyAllocation a).control = s.control := by
  simp only [State.applyAllocation, State.setKeys_control, State.joinAndReserve_control, State.setRecoder_control]
  rw [foldl_control (f := State.grantHold) fun _ _ => rfl, foldl_control (f := State.grantJob a.interval) fun _ _ => rfl,
    State.setAllocator_control, foldl_control (f := State.runPrimed) fun _ _ => rfl]

@[simp] theorem State.startRoundWork_control (s : State) : s.startRoundWork.control = s.control := by
  simp [State.startRoundWork]

@[simp] theorem State.closeInterval_control (s : State) : s.closeInterval.control = s.control := by
  obtain ⟨a, h⟩ := s.closeInterval_eq
  rw [h, State.setAllocator_control]

@[simp] theorem State.clearFigures_control (s : State) : s.clearFigures.control = s.control := rfl

@[simp] theorem State.openInterval_control (s : State) : s.openInterval.control = s.control := rfl

/-! ### Fault records, reports and page tests -/

@[simp] theorem State.startFaultWrite_control (s : State) : s.startFaultWrite.control = s.control := by
  obtain ⟨l, w, h, -⟩ := s.startFaultWrite_cases
  rw [h, State.setReporter_control, State.setLink_control]

@[simp] theorem State.faultReply_control (s : State) (r : Reply) : (s.faultReply r).control = s.control := by
  unfold State.faultReply
  split <;> rfl

@[simp] theorem State.startReport_control (s : State) : s.startReport.control = s.control := by
  unfold State.startReport
  split
  · exact State.issue_control _ _
  · rfl

@[simp] theorem State.reportRecordWritten_control (s : State) (f : Figures) :
    (s.reportRecordWritten f).control = s.control :=
  State.issue_control _ _

@[simp] theorem State.testRecord_control (s : State) (t : PageTest) : (s.testRecord t).control = s.control := by
  unfold State.testRecord
  dsimp only
  split
  · exact State.issue_control _ _
  · rfl

@[simp] theorem State.judgePage_control (s : State) (t : PageTest) (page : Nat) (good : Bool) :
    (s.judgePage t page good).control = s.control := by
  unfold State.judgePage
  dsimp only
  split
  · exact State.testRecord_control _ _
  · rfl

@[simp] theorem State.testReply_control (s : State) (r : Reply) : (s.testReply r).control = s.control := by
  unfold State.testReply
  split
  · rfl
  · split <;> rfl

@[simp] theorem State.interruptTest_control (s : State) : s.interruptTest.control = s.control := by
  unfold State.interruptTest
  split
  · rfl
  · split
    · exact State.testRecord_control _ _
    · rfl
    · rfl

@[simp] theorem State.filterAddress_control (s : State) : s.filterAddress.2.control = s.control := by
  unfold State.filterAddress
  split <;> rfl

end Sys2Proof.Machine

/-! PROOFS. The interrupt line (R182, R183): every piece of work either leaves the event registers and the line or ends in
a raise or a register write that drives the line anew, so each command keeps the line driven. -/

namespace Sys2Proof.Machine

variable {s t : State}

/-! ### Keeping the line driven -/

/-- LineDriven speaks of the two event registers and the line alone. -/
theorem State.LineDriven.of_registers (h : s.LineDriven) (hevents : t.control.events = s.control.events)
    (henable : t.control.enable = s.control.enable) (hline : t.control.line = s.control.line) : t.LineDriven := by
  unfold State.LineDriven
  rw [hevents, henable, hline]
  exact h

theorem State.LineDriven.of_control (h : s.LineDriven) (e : t.control = s.control) : t.LineDriven :=
  h.of_registers (by rw [e]) (by rw [e]) (by rw [e])

/-- A change of the control unit that keeps both event registers and the line. -/
theorem State.LineDriven.setControl (h : s.LineDriven) {c : Control} (hevents : c.events = s.control.events := by rfl)
    (henable : c.enable = s.control.enable := by rfl) (hline : c.line = s.control.line := by rfl) :
    (s.setControl c).LineDriven :=
  h.of_registers hevents henable hline

theorem State.LineDriven.setLink (h : s.LineDriven) (x : Link) : (s.setLink x).LineDriven := h

theorem State.LineDriven.setRecoder (h : s.LineDriven) (x : Recoder) : (s.setRecoder x).LineDriven := h

theorem State.LineDriven.setSide (h : s.LineDriven) (x : Side) : (s.setSide x).LineDriven := h

theorem State.LineDriven.setLine (h : s.LineDriven) (x : Line) : (s.setLine x).LineDriven := h

theorem State.LineDriven.setReporter (h : s.LineDriven) (x : Reporter) : (s.setReporter x).LineDriven := h

/-- The register writes of R182 drive the line, whatever it was before. -/
theorem State.drive_driven (s : State) (c : Control) (events enable : Byte) :
    (s.setControl (c.drive events enable)).LineDriven := rfl

/-- A completion raises COMMAND_DONE (R172), which drives the line. -/
theorem State.complete_driven (s : State) (last : Option CommandName) (result : CmdResult) :
    (s.complete last result).LineDriven :=
  State.raise_driven _ _

@[simp] theorem State.afterReset_control (s : State) (c : Control) (store : Store) :
    (s.afterReset c store).control = c := rfl

/-- The control unit's values at a power-on or bus function reset (R179). -/
theorem State.afterReset_driven (s : State) (store : Store) : (s.afterReset Control.reset store).LineDriven := by
  change false = ((0 &&& 0 : Byte) != 0)
  decide

theorem State.LineDriven.of_issue (h : s.LineDriven) {q : Request} {o : Option Reply} (e : s.issue q = (t, o)) :
    t.LineDriven :=
  ((RunFrame.refl s).of_issue e).driven h

theorem State.LineDriven.issue (h : s.LineDriven) (q : Request) : (s.issue q).1.LineDriven :=
  h.of_control (s.issue_control q)

/-! ### Reports and the end of a drain -/

theorem State.LineDriven.enterIdle (h : s.LineDriven) : s.enterIdle.LineDriven := by
  unfold State.enterIdle
  split
  · exact h.of_registers (by simp) (by simp) (by simp)
  · exact h

theorem State.LineDriven.endReport (h : s.LineDriven) (f : Figures) : (s.endReport f).LineDriven := by
  unfold State.endReport
  dsimp only
  split
  · exact State.LineDriven.enterIdle h
  · exact h.of_control (State.startReport_control _)

theorem State.stopReporting_driven (s : State) (f : Figures) : (s.stopReporting f).LineDriven := by
  unfold State.stopReporting
  dsimp only
  split
  · exact (State.raise_driven _ _).enterIdle
  · exact State.raise_driven _ _

theorem State.LineDriven.reportIndexRead (h : s.LineDriven) (f : Figures) (c : Nat) :
    (s.reportIndexRead f c).LineDriven := by
  unfold State.reportIndexRead
  split
  · exact (State.raise_driven _ _).endReport f
  · split
    · rename_i e
      exact State.LineDriven.of_issue (h.setReporter _) e
    · exact State.stopReporting_driven _ _

theorem State.LineDriven.reportReply (h : s.LineDriven) (r : Reply) : (s.reportReply r).LineDriven := by
  unfold State.reportReply
  split
  · exact h
  · split
    · exact State.stopReporting_driven _ _
    · exact h.reportIndexRead _ _
    · exact h.of_control (s.reportRecordWritten_control _)
    · exact (State.raise_driven _ _).endReport _

/-! ### The boundary and the allocation -/

theorem State.LineDriven.startRoundStatus (h : s.LineDriven) : s.startRoundStatus.LineDriven :=
  (RunFrame.refl (s.setController { s.controller with statusSeen := true })).startStatus.driven h

theorem State.LineDriven.applyAllocation (h : s.LineDriven) (a : Allocation) : (s.applyAllocation a).LineDriven :=
  h.of_control (s.applyAllocation_control a)

theorem State.LineDriven.completeAtBoundary (h : s.LineDriven) : s.completeAtBoundary.LineDriven := by
  unfold State.completeAtBoundary
  split
  · exact h
  · exact (h.applyAllocation _).startRoundStatus

theorem State.LineDriven.intakeAtBoundary (h : s.LineDriven) : s.intakeAtBoundary.LineDriven := by
  unfold State.intakeAtBoundary
  split
  · exact h
  · exact (RunFrame.refl s).beginIntake.driven h

/-- R150, R156: the swap raises LINE_SHORTFALL or leaves the control unit. -/
theorem State.LineDriven.swapLine (h : s.LineDriven) : s.swapLine.1.LineDriven := by
  unfold State.swapLine
  dsimp only
  split
  · exact State.raise_driven _ _
  · exact h

theorem State.LineDriven.swapLists (h : s.LineDriven) (lineFirst : Bool) (jobs : List Job) :
    (s.swapLists lineFirst jobs).1.LineDriven := by
  cases lineFirst with
  | true => exact h.swapLine.of_control (State.returnJobs_control _ _)
  | false => exact (h.of_control (s.returnJobs_control jobs)).swapLine

theorem State.LineDriven.reportBoundary (h : s.LineDriven) (f : Figures) : (s.reportBoundary f).LineDriven := by
  unfold State.reportBoundary
  split
  · exact h.setControl.of_control (State.startReport_control _)
  · split
    · exact h.enterIdle
    · exact h

/-- R175: what follows the swap at a boundary. -/
theorem State.LineDriven.nextInterval (h : s.LineDriven) (x : Timer) (f : Figures) :
    ((s.clearFigures.openInterval.setTimer x).reportBoundary f).intakeAtBoundary.LineDriven :=
  (State.LineDriven.reportBoundary (h.of_control (by simp)) f).intakeAtBoundary

theorem State.LineDriven.boundary (h : s.LineDriven) (lineFirst : Bool) : (s.boundary lineFirst).LineDriven := by
  unfold State.boundary
  dsimp only
  refine (State.LineDriven.swapLists ?closed lineFirst s.recoder.jobs).nextInterval _ _
  exact h.of_control (by simp)

/-! ### START -/

theorem State.LineDriven.startRead (h : s.LineDriven) (step : StartStep) (directory : Long) (key : Option Byte)
    (addr : Long) (length : Nat) : (s.startRead step directory key addr length).LineDriven := by
  unfold State.startRead
  split
  · rename_i e
    exact State.LineDriven.of_issue h.setControl e
  · rename_i e
    exact (State.LineDriven.of_issue h.setControl e).setControl

theorem State.LineDriven.startEnds (h : s.LineDriven) (r : CmdResult) : (s.startEnds r).LineDriven := h.setControl

theorem State.LineDriven.startRun (h : s.LineDriven) : s.startRun.LineDriven := by
  have starting : (s.setDevice .starting).LineDriven := h.setControl
  unfold State.startRun
  dsimp only
  split
  · exact starting.startRead _ _ _ _ _
  · exact starting.startEnds _

theorem State.LineDriven.startSettings (h : s.LineDriven) (directory : Long) (data : List Byte) :
    (s.startSettings directory data).LineDriven := by
  unfold State.startSettings
  dsimp only
  split
  · exact h.setControl.startRead _ _ _ _ _
  · exact h.startEnds _

theorem State.LineDriven.startRegions (h : s.LineDriven) (directory : Long) (data : List Byte) :
    (s.startRegions directory data).LineDriven := by
  unfold State.startRegions
  split
  · exact h.startEnds _
  · exact (h.setLink _).startRead _ _ _ _ _

theorem State.LineDriven.startCodes (h : s.LineDriven) (directory : Long) (data : List Byte) :
    (s.startCodes directory data).LineDriven := by
  unfold State.startCodes
  split
  · exact (h.setRecoder _).startEnds _
  · exact (h.setRecoder _).startRead _ _ _ _ _

theorem State.LineDriven.startFilters (h : s.LineDriven) (data : List Byte) : (s.startFilters data).LineDriven := by
  unfold State.startFilters
  split
  · exact h.startEnds _
  · exact (h.setSide _).startEnds _

theorem State.LineDriven.startReply (h : s.LineDriven) (r : Reply) : (s.startReply r).LineDriven := by
  unfold State.startReply
  split
  · exact h.startEnds _
  · exact h.startSettings _ _
  · exact h.startRegions _ _
  · exact h.startCodes _ _
  · exact h.startFilters _
  · exact h

/-- START's end completes the command, with the first intake of the run behind it where the result is OK (R174). -/
theorem State.startFinish_driven (s : State) (r : CmdResult) : (s.startFinish r).LineDriven := by
  unfold State.startFinish
  dsimp only
  split
  · exact (RunFrame.refl _).beginIntake.driven (State.complete_driven _ _ _)
  · exact State.complete_driven _ _ _

/-! ### The other commands -/

/-- R172: a CONTROL write keeps the line driven where what its acceptance begins does. -/
theorem State.LineDriven.command (h : s.LineDriven) (c : CommandName) {run : State → State}
    (hrun : ∀ {u : State}, u.LineDriven → (run u).LineDriven) : (s.command c run).LineDriven := by
  unfold State.command
  split
  · exact h.setControl
  · split
    · exact hrun h.setControl
    · exact State.complete_driven _ _ _

theorem State.LineDriven.loadFiltersRun (h : s.LineDriven) : s.loadFiltersRun.LineDriven := by
  have addressed : s.filterAddress.2.LineDriven := h.of_control s.filterAddress_control
  unfold State.loadFiltersRun
  dsimp only
  split
  · rename_i e
    exact State.LineDriven.of_issue addressed.setControl e
  · rename_i e
    exact (State.LineDriven.of_issue addressed.setControl e).setControl

theorem State.loadFinish_driven (s : State) (r : TableRead) : (s.loadFinish r).LineDriven := by
  unfold State.loadFinish
  dsimp only
  split
  · split <;> exact State.complete_driven _ _ _
  · exact State.complete_driven _ _ _

theorem State.reloadFinish_driven (s : State) (r : TableRead) : (s.reloadFinish r).LineDriven := by
  unfold State.reloadFinish
  dsimp only
  split
  · split <;> exact State.complete_driven _ _ _
  · exact State.complete_driven _ _ _

theorem State.LineDriven.reloadRun (h : s.LineDriven) : s.reloadRun.LineDriven := h.setControl.issue _

theorem State.LineDriven.probeRun (h : s.LineDriven) : s.probeRun.LineDriven := by
  unfold State.probeRun
  split
  · exact State.complete_driven _ _ _
  · split
    · exact State.complete_driven _ _ _
    · exact h.setControl.issue _

theorem State.LineDriven.probeAnswer (h : s.LineDriven) (d : Long) (data : List Byte) :
    (s.probeAnswer d data).LineDriven := by
  unfold State.probeAnswer
  dsimp only
  exact h.setControl.issue _

theorem State.LineDriven.probeReply (h : s.LineDriven) (r : Reply) : (s.probeReply r).LineDriven := by
  unfold State.probeReply
  split
  · exact h.probeAnswer _ _
  · exact h.setControl
  · exact h.setControl
  · exact h.setControl
  · exact h

theorem State.LineDriven.testRun (h : s.LineDriven) (first count : Nat) : (s.testRun first count).LineDriven := by
  have testing : (s.setDevice .testing).LineDriven := h.setControl
  unfold State.testRun
  split
  · exact State.complete_driven _ _ _
  · split
    · exact testing.of_control (State.testRecord_control _ _)
    · exact testing

theorem State.LineDriven.testFinish (h : s.LineDriven) (x : PageTest) (r : CmdResult) :
    (s.testFinish x r).LineDriven := by
  unfold State.testFinish
  dsimp only
  split
  · split
    · exact State.LineDriven.setControl h
    · exact State.raise_driven _ _
  · exact State.complete_driven _ _ _

/-! ### HALT -/

/-- HALT's visit to the controller is work of the controller (R15). -/
theorem RunFrame.haltController {r : State} (h : RunFrame r s) (writesStatus : Bool) :
    RunFrame r (s.haltController writesStatus) := by
  have todo := h.setController { s.controller with statusTodo := s.controller.statusTodo.take 1 } rfl rfl
  unfold State.haltController
  split
  · exact RunFrame.haltAdvance _ _ todo
  · split
    · refine RunFrame.setHalt (RunFrame.setController todo _ ?_ ?_) _ <;> rfl
    · exact RunFrame.haltAdvance _ _ (RunFrame.setController todo _ rfl rfl)

theorem State.LineDriven.haltDevice (h : s.LineDriven) : s.haltDevice.LineDriven := by
  unfold State.haltDevice
  exact ((RunFrame.refl _).haltController _).driven (h.of_registers (by simp) (by simp) (by simp))

theorem State.haltFinish_driven (s : State) : s.haltFinish.LineDriven := by
  unfold State.haltFinish
  dsimp only
  split <;> exact State.complete_driven _ _ _

/-! ### The end of an access -/

theorem State.LineDriven.deliver (h : s.LineDriven) (agent : Agent) (r : Reply) : (s.deliver agent r).LineDriven := by
  cases agent with
  | start => exact h.startReply r
  | filterLoad => exact h.setControl
  | regionReload => exact h.setControl
  | probe => exact h.probeReply r
  | pageTest => exact h.of_control (s.testReply_control r)
  | intake => exact ((RunFrame.refl s).intakeReply r).driven h
  | halt => exact ((RunFrame.refl s).haltReply r).driven h
  | status => exact ((RunFrame.refl s).statusReply r).driven h
  | finish p => exact ((RunFrame.refl s).finishReply p r).driven h
  | engine e => exact h.of_control (s.engineReply_control e r)
  | side => exact h.of_control (s.sideReply_control r)
  | report => exact h.reportReply r
  | faultRecord => exact h.of_control (s.faultReply_control r)

theorem State.LineDriven.endAccess (h : s.LineDriven) (tag : Nat) (reply : Access → Reply) :
    (s.endAccess tag reply).LineDriven := by
  unfold State.endAccess
  split
  · exact h
  · exact (h.setLink _).deliver _ _

theorem State.LineDriven.takeReportOf (h : s.LineDriven) (p : Program) (q : Report → Bool) :
    (s.takeReportOf p q).LineDriven := by
  obtain ⟨_, frame⟩ := s.takeReportOf_frame p q
  exact frame.driven h

/-! ### The commands -/

/-- Where a command answers with a next state, the line of that state is driven. -/
def NextDriven (o : Host.Outcome State Fault Refusal) : Prop := ∀ t, o = .next t → t.LineDriven

theorem State.LineDriven.next (h : t.LineDriven) : NextDriven (.next t) := by
  rintro _ ⟨⟩
  exact h

theorem State.LineDriven.next_of_control (h : s.LineDriven) (e : t.control = s.control) : NextDriven (.next t) :=
  (h.of_control e).next

theorem execStartComplete_driven (h : s.LineDriven) : NextDriven (execStartComplete s) := by
  unfold execStartComplete
  split
  · exact (s.startFinish_driven _).next
  · exact h.next

theorem execHalt_driven (h : s.LineDriven) : NextDriven (execHalt s) := by
  unfold execHalt
  split
  · exact h.setControl.next
  · split <;> exact (State.complete_driven _ _ _).next
  · exact h.haltDevice.next

theorem execHaltComplete_driven (h : s.LineDriven) : NextDriven (execHaltComplete s) := by
  unfold execHaltComplete
  split
  · exact s.haltFinish_driven.next
  · exact h.next

theorem execLoadEnd_driven (h : s.LineDriven) : NextDriven (execLoadEnd s) := by
  unfold execLoadEnd
  split
  · exact (s.loadFinish_driven _).next
  · exact (s.loadFinish_driven _).next
  · exact h.next

theorem execReloadEnd_driven (h : s.LineDriven) : NextDriven (execReloadEnd s) := by
  unfold execReloadEnd
  split
  · exact (s.reloadFinish_driven _).next
  · exact (s.reloadFinish_driven _).next
  · exact h.next

theorem execPageTested_driven (h : s.LineDriven) (event : PageStep) : NextDriven (execPageTested event s) := by
  unfold execPageTested
  split
  · exact h.next
  · split
    · exact h.next_of_control rfl
    · exact h.next_of_control (State.judgePage_control _ _ _ _)
    · exact h.next_of_control (State.judgePage_control _ _ _ _)
    · exact h.next

theorem execTestEnd_driven (h : s.LineDriven) : NextDriven (execTestEnd s) := by
  unfold execTestEnd
  split
  · exact h.next
  · split
    · exact (h.testFinish _ _).next
    · exact h.next

theorem execProbeEnd_driven (h : s.LineDriven) : NextDriven (execProbeEnd s) := by
  unfold execProbeEnd
  split
  · exact (State.complete_driven _ _ _).next
  · exact h.next

theorem execBadCommand_driven (h : s.LineDriven) (code : Byte) : NextDriven (execBadCommand code s) := by
  unfold execBadCommand
  split
  · exact h.setControl.next
  · exact (State.complete_driven _ _ _).next

theorem execInstallEnd_driven (h : s.LineDriven) : NextDriven (execInstallEnd s) := by
  unfold execInstallEnd
  split
  · exact h.next
  · exact (State.raise_driven _ _).next

/-- R101, for any word read: on the holding's own word a `rfl` has the kernel compute, as at `exec_keyCheck`. -/
theorem State.LineDriven.keyCheckRead (h : s.LineDriven) (word : Word) (k : Keys) :
    ({ s with control := { s.control with readData := word }, keys := k } : State).LineDriven :=
  h.of_registers rfl rfl rfl

theorem exec_keyCheck_driven (h : s.LineDriven) : NextDriven (exec .keyCheck s) := by
  intro t e
  rw [exec_keyCheck] at e
  cases e
  exact h.keyCheckRead _ _

theorem execCaptureEnd_driven (h : s.LineDriven) : NextDriven (execCaptureEnd s) := by
  unfold execCaptureEnd
  split
  · exact h.next
  · exact h.next_of_control rfl

theorem execRegisterWrite_driven (h : s.LineDriven) (register : PlainRegister) (value : Word) :
    NextDriven (execRegisterWrite register value s) := by
  cases register with
  | status => exact h.next
  | directoryLow => exact h.setControl.next
  | directoryHigh => exact h.setControl.next
  | keyCheck => exact h.next

theorem execBoundary_driven (h : s.LineDriven) (event : BoundaryEvent) : NextDriven (execBoundary event s) := by
  unfold execBoundary
  split
  · refine (State.LineDriven.boundary ?_ _).next
    split
    · exact h.completeAtBoundary
    · exact h
  · exact h.next

theorem execIntakeComplete_driven (h : s.LineDriven) : NextDriven (execIntakeComplete s) := by
  unfold execIntakeComplete
  split
  · exact h.next
  · split
    · dsimp only
      split
      · exact h.next_of_control rfl
      · exact (State.LineDriven.intakeAtBoundary (s := s.mergeIntakeNotes) h).next
    · exact h.next

theorem execAllocationComplete_driven (h : s.LineDriven) : NextDriven (execAllocationComplete s) := by
  unfold execAllocationComplete
  split
  · exact h.next
  · exact (h.applyAllocation _).startRoundStatus.next_of_control (State.startRoundWork_control _)

theorem execPassEnd_driven (h : s.LineDriven) (e : Engine) : NextDriven (execPassEnd e s) := by
  unfold execPassEnd
  split
  · split
    · exact h.next
    · split
      · exact h.next_of_control (State.startBuild_control _ _ _ _)
      · split
        · exact h.next_of_control (State.startPass2_control _ _ _ _)
        · split
          · exact h.next_of_control (State.endsHeld_control _ _ _ _)
          · exact h.next_of_control (State.startFloor_control _ _ _ _)
  · exact h.next

theorem execFloorPassEnd_driven (h : s.LineDriven) (e : Engine) : NextDriven (execFloorPassEnd e s) := by
  unfold execFloorPassEnd
  split
  · split
    · split
      · exact h.next_of_control (State.endsHeld_control _ _ _ _)
      · exact h.next_of_control (State.endsHeld_control _ _ _ _)
      · split
        · exact h.next_of_control (State.endsHeld_control _ _ _ _)
        · exact h.next_of_control (State.startBuild_control _ _ _ _)
    · exact h.next
  · exact h.next

theorem execJobCompletion_driven (h : s.LineDriven) (e : Engine) : NextDriven (execJobCompletion e s) := by
  unfold execJobCompletion
  split
  · exact h.next_of_control (by simp)
  · exact h.next

theorem execCompletionReport_driven (h : s.LineDriven) (p : Program) : NextDriven (execCompletionReport p s) := by
  unfold execCompletionReport
  split
  · exact h.next
  · dsimp only
    split <;> exact h.next_of_control rfl

theorem execSideLink_driven (h : s.LineDriven) : NextDriven (execSideLink s) := by
  unfold execSideLink
  split
  · split
    · exact h.next_of_control (State.nextSideBuild_control _)
    · exact h.next
  · exact h.next

/-- R122: an uncorrectable read raises STORE_ERROR; every other answer leaves the control unit. -/
theorem State.LineDriven.sendEntry (h : s.LineDriven) (check : ReadCheck) (entry : Entry) :
    NextDriven (s.sendEntry check entry) := by
  cases entry with
  | produced p count sequence => exact h.next_of_control rfl
  | stored page place =>
    unfold State.sendEntry
    dsimp only
    split
    · rintro t ⟨⟩
    · cases check with
      | clean => exact h.next_of_control rfl
      | corrected => exact h.next_of_control rfl
      | uncorrectable => exact State.LineDriven.next (State.raise_driven _ .storeError)

theorem execCellRequest_driven (h : s.LineDriven) (check : ReadCheck) : NextDriven (execCellRequest check s) := by
  unfold execCellRequest
  dsimp only
  split
  · split
    · split
      · exact h.next_of_control rfl
      · split
        · exact h.next_of_control rfl
        · exact ((h.setLine _).setLine _).sendEntry _ _
    · exact h.next_of_control rfl
  · exact h.next_of_control rfl

theorem execFaultRecordWriteEnd_driven (h : s.LineDriven) : NextDriven (execFaultRecordWriteEnd s) := by
  unfold execFaultRecordWriteEnd
  split
  · rename_i written req rest _ _
    have raised := State.raise_driven (s.setReporter { s.reporter with faultQueue := rest, faultWrite := none }) .programHeld
    cases written with
    | false => exact raised.next_of_control (State.startFaultWrite_control _)
    | true => exact raised.next_of_control (State.startFaultWrite_control _)
  · exact h.next

/-- R183: every command keeps the line driven. -/
theorem exec_keeps_lineDriven (h : s.LineDriven) (c : Instr) : NextDriven (exec c s) := by
  cases c with
  | start => exact (h.command .start State.LineDriven.startRun).next
  | startComplete => exact execStartComplete_driven h
  | stop => exact (h.command .stop fun _ => State.complete_driven _ _ _).next
  | halt => exact execHalt_driven h
  | haltComplete => exact execHaltComplete_driven h
  | loadFilters => exact (h.command .loadFilters State.LineDriven.loadFiltersRun).next
  | loadEnd => exact execLoadEnd_driven h
  | reloadRegions => exact (h.command .reloadRegions State.LineDriven.reloadRun).next
  | reloadEnd => exact execReloadEnd_driven h
  | testPages first count => exact (h.command .testPages fun hu => hu.testRun _ _).next
  | pageTested event => exact execPageTested_driven h event
  | testEnd => exact execTestEnd_driven h
  | probe => exact (h.command .probe State.LineDriven.probeRun).next
  | probeEnd => exact execProbeEnd_driven h
  | reset => exact (State.raise_driven _ .commandDone).next
  | badCommand code => exact execBadCommand_driven h code
  | powerOnReset => exact (s.afterReset_driven _).next
  | busFunctionReset => exact (s.afterReset_driven _).next
  | keySelectNone p q => exact h.next_of_control rfl
  | load p q => exact h.next_of_control rfl
  | erase p q => exact h.next_of_control rfl
  | badOperation p q code => exact h.next_of_control rfl
  | keyData half => exact h.next_of_control rfl
  | installEnd => exact execInstallEnd_driven h
  | keyCheck => exact exec_keyCheck_driven h
  | captureEnd => exact execCaptureEnd_driven h
  | events value => exact (State.drive_driven s s.control _ _).next
  | eventEnable value => exact (State.drive_driven s s.control _ _).next
  | registerWrite register value => exact execRegisterWrite_driven h register value
  | boundary event => exact execBoundary_driven h event
  | intakeComplete => exact execIntakeComplete_driven h
  | allocationComplete => exact execAllocationComplete_driven h
  | passEnd e => exact execPassEnd_driven h e
  | floorPassEnd e => exact execFloorPassEnd_driven h e
  | jobCompletion e => exact execJobCompletion_driven h e
  | finishReport p => exact (h.takeReportOf p _).next
  | faultReport p => exact (h.takeReportOf p _).next
  | completionReport p => exact execCompletionReport_driven h p
  | sideLink => exact execSideLink_driven h
  | cellRequest check => exact execCellRequest_driven h check
  | faultRecordWriteEnd => exact execFaultRecordWriteEnd_driven h
  | accessCompletion tag data => exact (h.endAccess tag _).next
  | busError tag => exact (h.endAccess tag _).next
  | completionTimeout tag => exact (h.endAccess tag _).next

/-- A step runs the command at the front of the queue, or idles (log 4). -/
theorem step_keeps_lineDriven (h : s.LineDriven) : NextDriven (step s) := by
  unfold step
  split
  · exact h.next
  · exact exec_keeps_lineDriven (h.of_control (State.setPending_control _ _)) _

/-- R182, R183: the raised flag stands among the flags, so an enabled one asserts the line. -/
theorem State.raise_line_of_enabled (s : State) (f : EventFlag) (h : f.bit &&& s.control.enable ≠ 0) :
    (s.raise f).control.line = true := by
  change (((s.control.events ||| f.bit) &&& s.control.enable) != 0) = true
  rw [bne_iff_ne]
  intro none_set
  apply h
  rw [BitVec.and_or_distrib_right] at none_set
  exact (BitVec.or_eq_zero_iff.mp none_set).2

/-- R179: a RESET clears both event registers and releases the line, and then sets COMMAND_DONE. -/
theorem State.reset_registers (s : State) :
    let c := ((s.afterReset s.control.afterReset (s.store.rebuilt s.retiredAfterReset)).raise .commandDone).control
    c.events = 1 ∧ c.enable = 0 ∧ c.line = false := by
  simp [State.raise, Control.afterReset, Control.reset, Control.drive, EventFlag.bit]

/-- Settles O4: the invariant over the commands, the raise by its bit, and each register write and reset by its meaning. -/
theorem stepKeepsTheLineDriven : Obligations.StepKeepsTheLineDriven := by
  refine ⟨fun s t h => step_keeps_lineDriven h t, State.raise_line_of_enabled, fun s t v => ?writes, fun s => ?resets⟩
  case writes =>
    rintro (⟨⟨⟩⟩ | ⟨⟨⟩⟩)
    · exact State.drive_driven s s.control _ _
    · exact State.drive_driven s s.control _ _
  case resets => exact ⟨⟨_, rfl, rfl, rfl, rfl⟩, ⟨_, rfl, rfl, rfl, rfl⟩, _, rfl, s.reset_registers⟩

end Sys2Proof.Machine

/-! PROOFS. The lookahead windows (R32): the controller's work raises a window's count at one place alone, the end of a TAKEN
write, and every intake that goes on to take has looked at the count before. -/

namespace Sys2Proof.Machine

/-! ### Work that raises no count and leaves the intake -/

/-- From s to t no window's count rises and the intake in flight is the same. -/
structure Shrinks (s t : State) : Prop where
  counts : ∀ p, (t.ctx p).window.count ≤ (s.ctx p).window.count
  intake : t.controller.intake = s.controller.intake

variable {r s t : State} {p : Program}

theorem Shrinks.refl (s : State) : Shrinks s s := ⟨fun _ => le_rfl, rfl⟩

theorem Shrinks.trans (a : Shrinks r s) (b : Shrinks s t) : Shrinks r t :=
  ⟨fun p => (b.counts p).trans (a.counts p), b.intake.trans a.intake⟩

theorem Shrinks.of_controller (h : Shrinks r s) (e : t.controller = s.controller) : Shrinks r t :=
  h.trans ⟨fun p => by rw [State.ctx, State.ctx, e], by rw [e]⟩

/-- A change of the controller that leaves contexts and intake. -/
theorem Shrinks.setController (h : Shrinks r s) (c : Controller) (hp : c.programs = s.controller.programs)
    (hi : c.intake = s.controller.intake) : Shrinks r (s.setController c) :=
  h.trans ⟨fun p => by rw [State.ctx, State.ctx, State.setController_controller, hp], hi⟩

theorem Shrinks.modCtx (h : Shrinks r s) (p : Program) {f : ProgramCtx → ProgramCtx}
    (hf : ∀ c : ProgramCtx, (f c).window.count ≤ c.window.count) :
    Shrinks r (s.modCtx p f) := by
  refine h.trans ⟨fun q => ?_, rfl⟩
  rw [State.ctx_modCtx]
  split
  · exact hf _
  · exact le_rfl

theorem Shrinks.issue (h : Shrinks r s) (q : Request) : Shrinks r (s.issue q).1 := h.of_controller (s.issue_controller q)

theorem Shrinks.of_issue (h : Shrinks r s) {q : Request} {o : Option Reply} (e : s.issue q = (t, o)) : Shrinks r t := by
  have := h.issue q
  rwa [e] at this

theorem Shrinks.setLast (h : Shrinks r s) (p : Program) (o : Outcome) (n : Word) : Shrinks r (s.setLast p o n) :=
  h.modCtx p fun _ => le_rfl

theorem Shrinks.setFinish (h : Shrinks r s) (p : Program) (w : Option FinishWork) : Shrinks r (s.setFinish p w) :=
  h.modCtx p fun _ => le_rfl

theorem Shrinks.finishA (h : Shrinks r s) (p : Program) (o : Outcome) (n : Word) : Shrinks r (s.finishA p o n) :=
  Shrinks.setLast (h.modCtx p fun _ => Nat.sub_le _ 1) p o n

theorem Shrinks.intakeNote (h : Shrinks r s) (p : Program) (f : Notes → Notes) : Shrinks r (s.intakeNote p f) :=
  h.setController _ rfl rfl

theorem Shrinks.note (h : Shrinks r s) (p : Program) (f : Notes → Notes) : Shrinks r (s.note p f) := h.setController _ rfl rfl

theorem Shrinks.setHalt (h : Shrinks r s) (x : HaltPhase) : Shrinks r (s.setHalt x) := h.setController _ rfl rfl

theorem Shrinks.cueMatched (h : Shrinks r s) (p : Program) (d : Disposition) : Shrinks r (s.cueMatched p d) := by
  unfold State.cueMatched
  split
  · exact h.of_controller rfl
  · exact h

theorem Shrinks.startFaultWrite (h : Shrinks r s) : Shrinks r s.startFaultWrite := by
  obtain ⟨l, w, e, -⟩ := s.startFaultWrite_cases
  exact h.of_controller (by rw [e]; rfl)

theorem Shrinks.requestFaultRecord (h : Shrinks r s) (q : FaultRequest) : Shrinks r (s.requestFaultRecord q) := by
  unfold State.requestFaultRecord
  split
  · exact Shrinks.startFaultWrite (h.of_controller rfl)
  · split
    · exact Shrinks.of_controller (h.note q.program fun n => { n with faultRecordLost := true }) rfl
    · exact h.of_controller rfl

theorem Shrinks.hold (h : Shrinks r s) (p : Program) (byIntake : Bool) (info : FaultInfo) :
    Shrinks r (s.hold p byIntake info) := by
  have noted : Shrinks r (if byIntake then s.intakeNote p fun n => { n with heldFault := true }
      else s.note p fun n => { n with heldFault := true }) := by
    split
    · exact h.intakeNote p _
    · exact h.note p _
  unfold State.hold
  dsimp only
  split
  · exact h
  · exact noted
  · exact (noted.modCtx p (by exact fun _ => le_rfl)).requestFaultRecord _

theorem Shrinks.noticeIfAllOff (h : Shrinks r s) : Shrinks r s.noticeIfAllOff := by
  unfold State.noticeIfAllOff
  split
  · exact h.of_controller rfl
  · exact h

theorem Shrinks.programOff (h : Shrinks r s) (p : Program) : Shrinks r (s.programOff p) :=
  Shrinks.noticeIfAllOff (Shrinks.of_controller (h.modCtx p (f := fun c => { c with state := .off }) fun _ => le_rfl) rfl)

theorem Shrinks.endAbandon (h : Shrinks r s) (p : Program) : Shrinks r (s.endAbandon p) :=
  (h.modCtx p fun _ => Nat.zero_le _).programOff p

theorem Shrinks.offIfDrained (h : Shrinks r s) (p : Program) : Shrinks r (s.offIfDrained p) := by
  unfold State.offIfDrained
  split
  · exact h.programOff p
  · exact h

theorem Shrinks.startProgram (h : Shrinks r s) (p : Program) (f : Fixed) : Shrinks r (s.startProgram p f) := by
  refine Shrinks.of_controller (s := s.modCtx p fun c =>
    { c with
      state := .priming, fixed := f, nextRecord := f.chainStart, window := c.window.started, lastPair := (none, 0)
      lastOutcome := none, lastInterval := 0, refused := .none }) ?_ rfl
  exact h.modCtx p fun _ => Nat.zero_le _

theorem Shrinks.handPair (h : Shrinks r s) (p : Program) : Shrinks r (s.handPair p) := by
  unfold State.handPair
  dsimp only
  split
  · exact h
  · split
    · exact h
    · split
      · rename_i l _ _ t _ _
        refine Shrinks.of_controller (s := s.modCtx p fun c => { c with lastPair := (some t, l.interval) }) ?_ rfl
        exact h.modCtx p fun _ => le_rfl
      · exact h

theorem Shrinks.handCue (h : Shrinks r s) (p : Program) : Shrinks r (s.handCue p) := by
  unfold State.handCue
  split
  · exact h
  · exact h.of_controller rfl

/-! ### Status parts, abandonment and HALT -/

theorem Shrinks.statusRun : ∀ (todo : List Program) {s : State}, Shrinks r s → Shrinks r (State.statusRun todo s)
  | [], s, h => by
    unfold State.statusRun
    dsimp only
    split
    · exact Shrinks.setController (h.setController _ (by rfl) (by rfl)) _ (by rfl) (by rfl)
    · exact h.setController _ rfl rfl
  | p :: rest, s, h => by
    unfold State.statusRun
    split <;> rename_i e
    · exact (h.of_issue e).setController _ rfl rfl
    · exact Shrinks.statusRun rest ((h.of_issue e).note p _)

theorem Shrinks.startStatus (h : Shrinks r s) : Shrinks r s.startStatus := by
  unfold State.startStatus
  split
  · exact h.statusRun _
  · exact h.setController _ rfl rfl

theorem Shrinks.statusReply (h : Shrinks r s) (x : Reply) : Shrinks r (s.statusReply x) := by
  unfold State.statusReply
  split
  · exact h
  · exact h.statusRun _
  · exact Shrinks.statusRun _ (h.note _ _)

theorem Shrinks.abandonFrom {a : Agent} {note : State → State} (hn : ∀ {s}, Shrinks r s → Shrinks r (note s))
    (p : Program) : ∀ (fuel i : Nat) {s : State}, Shrinks r s → Shrinks r (State.abandonFrom a note p fuel i s).1
  | 0, _, _, h => h
  | fuel + 1, i, s, h => by
    unfold State.abandonFrom
    dsimp only
    split
    · exact h
    · split
      · exact Shrinks.abandonFrom hn p fuel _ h
      · split <;> rename_i e
        · exact h.of_issue e
        · exact Shrinks.abandonFrom hn p fuel _ (hn (h.of_issue e))

theorem Shrinks.abandonReply {a : Agent} {note : State → State} (hn : ∀ {s}, Shrinks r s → Shrinks r (note s))
    (h : Shrinks r s) (p : Program) (isState : Bool) (i : Nat) (x : Reply) :
    Shrinks r (State.abandonReply a note p isState i x s).1 := by
  unfold State.abandonReply
  split
  · exact Shrinks.abandonFrom hn p _ _ (hn h)
  · split
    · exact Shrinks.abandonFrom hn p _ _ h
    · split <;> rename_i e
      · exact h.of_issue e
      · exact Shrinks.abandonFrom hn p _ _ (hn (h.of_issue e))

theorem Shrinks.haltAdvance (writesStatus : Bool) : ∀ (todo : List Program) {s : State}, Shrinks r s →
    Shrinks r (State.haltAdvance writesStatus todo s)
  | [], s, h => by
    unfold State.haltAdvance
    split
    · exact (h.setHalt _).startStatus
    · exact h.setHalt _
  | p :: rest, s, h => by
    unfold State.haltAdvance
    split
    · exact Shrinks.haltAdvance writesStatus rest h
    · split
      · exact h.setHalt _
      · have visited := Shrinks.abandonFrom (a := .halt) (note := State.haltNote p) (fun x => x.note p _) p 4 0 h
        split <;> rename_i e <;> rw [e] at visited
        · exact visited.setHalt _
        · exact visited.setHalt _
        · exact Shrinks.haltAdvance writesStatus rest (visited.endAbandon p)

theorem Shrinks.haltAfter (p : Program) (rest : List Program) (writesStatus : Bool) (x : State × AbandonWait)
    (h : Shrinks r x.1) : Shrinks r (State.haltAfter p rest writesStatus x) := by
  unfold State.haltAfter
  split
  · exact h.setHalt _
  · exact h.setHalt _
  · exact (h.endAbandon p).haltAdvance writesStatus rest

theorem Shrinks.haltReply (h : Shrinks r s) (x : Reply) : Shrinks r (s.haltReply x) := by
  unfold State.haltReply
  split
  · exact .haltAfter _ _ _ _ (h.abandonReply (fun y => y.note _ _) _ _ _ _)
  · exact .haltAfter _ _ _ _ (h.abandonReply (fun y => y.note _ _) _ _ _ _)
  · exact h

/-! ### The counts and the program of the intake -/

/-- Every window's count is within 0..4, and an intake in flight is at program p. -/
structure State.IntakeAt (s : State) (p : Program) : Prop where
  counts : ∀ q, (s.ctx q).window.count ≤ 4
  program : ∀ i, s.controller.intake = some i → i.program = p

theorem Shrinks.intakeAt (h : Shrinks s t) (b : s.IntakeAt p) : t.IntakeAt p :=
  ⟨fun q => (h.counts q).trans (b.counts q), by rw [h.intake]; exact b.program⟩

theorem Shrinks.windows (h : Shrinks s t) (b : s.WindowsBounded) : t.WindowsBounded where
  bounded q := (h.counts q).trans (b.bounded q)
  roomToTake := by
    rw [h.intake]
    exact fun i hi ht => (h.counts _).trans_lt (b.roomToTake i hi ht)

theorem State.WindowsBounded.of_issue (b : s.WindowsBounded) (q : Request) : (s.issue q).1.WindowsBounded :=
  ((Shrinks.refl s).issue q).windows b

/-- Where no take is in progress the counts alone matter. -/
theorem State.windowsBounded_of_intake (hc : ∀ q, (s.ctx q).window.count ≤ 4)
    (hi : ∀ i, s.controller.intake = some i → i.phase.isTaking = false) : s.WindowsBounded where
  bounded := hc
  roomToTake i h ht := by simp [hi i h] at ht

/-- A phase that takes needs room in the window of the program taken from. -/
theorem State.IntakeAt.atPhase (b : s.IntakeAt p) (ph : IntakePhase)
    (room : ph.isTaking = true → (s.ctx p).window.count < 4) : (s.atPhase ph).WindowsBounded where
  bounded := b.counts
  roomToTake i hi ht := by
    obtain ⟨j, hj, rfl⟩ : ∃ j, s.controller.intake = some j ∧ { j with phase := ph } = i :=
      Option.map_eq_some_iff.mp hi
    change (s.ctx j.program).window.count < 4
    rw [b.program j hj]
    exact room ht

/-- The work after the last step of an intake that HALT ended (R15). -/
theorem State.endHaltedIntake_windows (hc : ∀ q, (s.ctx q).window.count ≤ 4) : s.endHaltedIntake.WindowsBounded := by
  have ended : (s.setController { s.controller with intake := none }).WindowsBounded :=
    State.windowsBounded_of_intake hc fun i hi => by cases hi
  unfold State.endHaltedIntake
  dsimp only
  split
  · exact (Shrinks.haltAdvance _ _ (.refl _)).windows ended
  · exact ended

theorem State.beginProgram_windows (hc : ∀ q, (s.ctx q).window.count ≤ 4) (p : Program) :
    (s.beginProgram p).1.WindowsBounded := by
  unfold State.beginProgram
  refine State.WindowsBounded.of_issue (State.windowsBounded_of_intake (by exact hc) fun i hi => ?_) _
  obtain ⟨j, -, rfl⟩ := Option.map_eq_some_iff.mp hi
  rfl

theorem State.nextProgram_windows (hc : ∀ q, (s.ctx q).window.count ≤ 4) : s.nextProgram.1.WindowsBounded := by
  unfold State.nextProgram
  split
  · rename_i none_in_flight
    exact State.windowsBounded_of_intake hc fun i hi => by simp [none_in_flight] at hi
  · rename_i i hi
    split
    · exact State.endHaltedIntake_windows hc
    · split
      · have here : s.IntakeAt i.program := ⟨hc, fun j hj => by rw [hi] at hj; cases hj; rfl⟩
        exact here.atPhase _ (by simp [IntakePhase.isTaking])
      · exact State.beginProgram_windows hc _

/-! ### Steps of the intake -/

theorem State.IntakeAt.tryTake (b : s.IntakeAt p) : (s.tryTake p).1.WindowsBounded := by
  unfold State.tryTake
  split
  · rename_i none_in_flight
    exact State.windowsBounded_of_intake b.counts fun i hi => by simp [none_in_flight] at hi
  · dsimp only
    split
    · exact State.endHaltedIntake_windows b.counts
    · split
      · rename_i takes
        exact (b.atPhase _ fun _ => takes.2.2).of_issue _
      · exact State.nextProgram_windows b.counts

theorem State.IntakeAt.afterMode (b : s.IntakeAt p) : (s.afterMode p).1.WindowsBounded :=
  (((Shrinks.refl s).handPair p).intakeAt b).tryTake

theorem State.IntakeAt.intakeAfter {x : State × AbandonWait} (b : x.1.IntakeAt p) :
    (State.intakeAfter p x).1.WindowsBounded := by
  unfold State.intakeAfter
  split
  · exact b.atPhase _ (by simp [IntakePhase.isTaking])
  · exact b.atPhase _ (by simp [IntakePhase.isTaking])
  · exact State.nextProgram_windows (((Shrinks.refl _).endAbandon p).intakeAt b).counts

theorem State.IntakeAt.intakeAbandon (b : s.IntakeAt p) : (s.intakeAbandon p).1.WindowsBounded := by
  unfold State.intakeAbandon
  split
  · exact b.atPhase _ (by simp [IntakePhase.isTaking])
  · exact ((Shrinks.abandonFrom (fun x => x.intakeNote p _) p _ _ (.refl s)).intakeAt b).intakeAfter

theorem State.IntakeAt.drainProgram (b : s.IntakeAt p) : (s.drainProgram p).1.WindowsBounded := by
  unfold State.drainProgram
  split
  · exact (((Shrinks.refl s).programOff p).intakeAt b).afterMode
  · exact (((Shrinks.refl s).modCtx p (by exact fun _ => le_rfl)).intakeAt b).afterMode

theorem State.IntakeAt.transition (b : s.IntakeAt p) : (s.transition p).1.WindowsBounded := by
  unfold State.transition
  split
  · exact (b.atPhase _ (by simp [IntakePhase.isTaking])).of_issue _
  · exact State.nextProgram_windows b.counts
  · exact State.nextProgram_windows b.counts
  · exact b.afterMode
  · exact b.intakeAbandon
  · exact b.intakeAbandon
  · exact b.afterMode
  · exact b.drainProgram
  · exact b.intakeAbandon
  · exact (((Shrinks.refl s).modCtx p (by exact fun _ => le_rfl)).intakeAt b).afterMode
  · exact b.drainProgram
  · exact b.intakeAbandon
  · exact b.afterMode
  · exact b.intakeAbandon
  · exact b.intakeAbandon

theorem State.IntakeAt.liveReply (b : s.IntakeAt p) (x : Reply) : (s.liveReply p x).1.WindowsBounded := by
  unfold State.liveReply
  split
  · exact ((((Shrinks.refl s).intakeNote p _).handCue p).intakeAt b).transition
  · have read := fun l => (Shrinks.refl s).modCtx p (f := fun c => { c with live := some l }) fun _ => le_rfl
    dsimp only
    split
    · exact ((((read _).intakeNote p _).handCue p).intakeAt b).transition
    · exact (((read _).handCue p).intakeAt b).transition

theorem State.IntakeAt.fixedReply (b : s.IntakeAt p) (x : Reply) : (s.fixedReply p x).1.WindowsBounded := by
  have refuses := fun code => (Shrinks.refl s).modCtx p (f := fun c => { c with refused := code }) fun _ => le_rfl
  unfold State.fixedReply
  split
  · exact State.nextProgram_windows b.counts
  · split
    · exact State.nextProgram_windows (((refuses _).intakeNote p _).intakeAt b).counts
    · split
      · exact (((Shrinks.refl s).startProgram p _).intakeAt b).afterMode
      · exact State.nextProgram_windows ((refuses _).intakeAt b).counts

theorem State.IntakeAt.faultedAttempt (b : s.IntakeAt p) (info : FaultInfo) (o : Option (Outcome × Word)) :
    (s.faultedAttempt p info o).1.WindowsBounded :=
  (b.atPhase _ (by simp [IntakePhase.isTaking])).of_issue _

theorem State.IntakeAt.faultedReply (b : s.IntakeAt p) (info : FaultInfo) (o : Option (Outcome × Word)) :
    (s.faultedReply p info o).1.WindowsBounded := by
  unfold State.faultedReply
  cases o with
  | none => exact State.nextProgram_windows (((Shrinks.refl s).hold p true info).intakeAt b).counts
  | some x => exact State.nextProgram_windows ((((Shrinks.refl s).setLast p _ _).hold p true info).intakeAt b).counts

/-- The next step of a take keeps the windows where the step itself does. -/
theorem State.IntakeAt.takeOn (b : s.IntakeAt p) {next : State → Cont} (hn : (next s).1.WindowsBounded) :
    (s.takeOn p next).1.WindowsBounded := by
  unfold State.takeOn
  split
  · exact State.nextProgram_windows b.counts
  · exact hn

theorem State.IntakeAt.countTake (b : s.IntakeAt p) : s.countTake.IntakeAt p := by
  refine ⟨b.counts, fun i hi => ?_⟩
  obtain ⟨j, hj, rfl⟩ := Option.map_eq_some_iff.mp hi
  exact b.program j hj

theorem State.IntakeAt.finishAtIntake (b : s.IntakeAt p) (o : Outcome) (rf : RecordFields) :
    (s.finishAtIntake p o rf).1.WindowsBounded :=
  (b.atPhase _ (by simp [IntakePhase.isTaking])).of_issue _

section
variable (b : s.IntakeAt p) (room : (s.ctx p).window.count < 4)
include b room

theorem State.IntakeAt.stateReply (x : Reply) : (s.stateReply p x).1.WindowsBounded := by
  unfold State.stateReply
  split
  · exact State.nextProgram_windows (((Shrinks.refl s).hold p true _).intakeAt b).counts
  · refine b.takeOn ?_
    split
    · exact (b.countTake.atPhase _ fun _ => room).of_issue _
    · exact State.nextProgram_windows b.counts

theorem State.IntakeAt.recordReply (x : Reply) : (s.recordReply p x).1.WindowsBounded := by
  unfold State.recordReply
  dsimp only
  split
  · exact b.faultedAttempt _ _
  · refine b.takeOn ?_
    split
    · exact b.faultedAttempt _ _
    · split
      · exact b.finishAtIntake _ _
      · exact (b.atPhase _ fun _ => room).of_issue _

theorem State.IntakeAt.takenWrite (rf : RecordFields) (slices : List SliceDesc) (sides : List SlotSide) :
    (s.takenWrite p rf slices sides).1.WindowsBounded :=
  (b.atPhase _ fun _ => room).of_issue _

theorem State.IntakeAt.sliceTableReply (rf : RecordFields) (x : Reply) :
    (s.sliceTableReply p rf x).1.WindowsBounded := by
  unfold State.sliceTableReply
  dsimp only
  split
  · split
    · exact b.finishAtIntake _ _
    · exact b.faultedAttempt _ _
  · refine b.takeOn ?_
    split
    · exact b.finishAtIntake _ _
    · split
      · exact (b.atPhase _ fun _ => room).of_issue _
      · exact b.takenWrite room _ _ _

end

theorem State.IntakeAt.classify (rf : RecordFields) (slices : List SliceDesc) : ∀ (rest : List SideEntry)
    (done : List SlotSide) {s : State}, s.IntakeAt p → (s.ctx p).window.count < 4 →
      (State.classify p rf slices done rest s).1.WindowsBounded
  | [], done, s, b, room => by
    unfold State.classify
    exact b.takenWrite room _ _ _
  | e :: rest, done, s, b, room => by
    unfold State.classify
    split
    · have cued := (Shrinks.refl s).cueMatched p ‹Disposition›
      exact State.IntakeAt.classify rf slices rest _ (cued.intakeAt b) ((cued.counts p).trans_lt room)
    · exact (b.atPhase _ fun _ => room).of_issue _

section
variable (b : s.IntakeAt p) (room : (s.ctx p).window.count < 4)
include b room

theorem State.IntakeAt.sideTableReply (rf : RecordFields) (slices : List SliceDesc) (x : Reply) :
    (s.sideTableReply p rf slices x).1.WindowsBounded := by
  unfold State.sideTableReply
  split
  · have noted := (Shrinks.refl s).intakeNote p fun n => { n with sideFault := true }
    exact (noted.intakeAt b).takeOn ((noted.intakeAt b).takenWrite room _ _ _)
  · exact b.takeOn (State.IntakeAt.classify rf slices _ _ b room)

theorem State.IntakeAt.headReply (rf : RecordFields) (slices : List SliceDesc) (done : List SlotSide) (e : SideEntry)
    (rest : List SideEntry) (x : Reply) : (s.headReply p rf slices done e rest x).1.WindowsBounded := by
  unfold State.headReply
  split
  · have noted : Shrinks s (s.noteSideFault p) := (Shrinks.refl s).of_controller rfl
    exact (noted.intakeAt b).takeOn (State.IntakeAt.classify rf slices _ _ (noted.intakeAt b) room)
  · refine b.takeOn ?_
    have cued := (Shrinks.refl s).cueMatched p (classifyHead s.loading s.side.table e ‹List Byte›)
    exact State.IntakeAt.classify rf slices _ _ (cued.intakeAt b) ((cued.counts p).trans_lt room)

/-- R34: the one place at which a count rises, and the take has found it below 4. -/
theorem State.IntakeAt.takenReply (slot : Slot) (link : Long) (x : Reply) :
    (s.takenReply p slot link x).1.WindowsBounded := by
  unfold State.takenReply
  split
  · exact b.faultedAttempt _ _
  · split
    · exact State.nextProgram_windows b.counts
    · refine State.IntakeAt.tryTake ⟨fun q => ?_, b.program⟩
      rw [State.ctx_modCtx]
      split
      · rename_i hq
        subst hq
        exact room
      · exact b.counts q

end

theorem State.IntakeAt.finishOutcomeReply (b : s.IntakeAt p) (o : Outcome) (n : Word) (rf : RecordFields) (x : Reply) :
    (s.finishOutcomeReply p o n rf x).1.WindowsBounded := by
  unfold State.finishOutcomeReply
  split
  · exact b.faultedAttempt _ _
  · exact (b.atPhase _ (by simp [IntakePhase.isTaking])).of_issue _

theorem State.IntakeAt.finishStateReply (b : s.IntakeAt p) (o : Outcome) (n : Word) (rf : RecordFields) (x : Reply) :
    (s.finishStateReply p o n rf x).1.WindowsBounded := by
  have last := (Shrinks.refl s).setLast p o n
  unfold State.finishStateReply
  split
  · exact b.faultedAttempt _ _
  · split
    · exact State.nextProgram_windows (last.intakeAt b).counts
    · exact ((last.modCtx p (by exact fun _ => le_rfl)).intakeAt b).tryTake

theorem State.WindowsBounded.intakeStep (b : s.WindowsBounded) (x : Reply) : (s.intakeStep x).1.WindowsBounded := by
  unfold State.intakeStep
  split
  · exact b
  · rename_i i hi
    have here : s.IntakeAt i.program := ⟨b.bounded, fun j hj => by rw [hi] at hj; cases hj; rfl⟩
    have room := b.roomToTake i hi
    dsimp only
    split <;> rename_i phase <;> rw [phase] at room
    · split
      · exact State.endHaltedIntake_windows b.bounded
      · exact here.liveReply _
    · split
      · exact State.endHaltedIntake_windows b.bounded
      · exact here.fixedReply _
    · exact b
    · exact (((Shrinks.refl s).abandonReply (fun y => y.intakeNote _ _) _ _ _ _).intakeAt here).intakeAfter
    · exact (((Shrinks.refl s).abandonReply (fun y => y.intakeNote _ _) _ _ _ _).intakeAt here).intakeAfter
    · exact here.stateReply (room rfl) _
    · exact here.recordReply (room rfl) _
    · exact here.sliceTableReply (room rfl) _ _
    · exact here.sideTableReply (room rfl) _ _ _
    · exact here.headReply (room rfl) _ _ _ _ _ _
    · exact here.takenReply (room rfl) _ _ _
    · exact here.finishOutcomeReply _ _ _ _
    · exact here.finishStateReply _ _ _ _
    · exact here.faultedReply _ _
    · exact b

theorem State.intakeRun_windows : ∀ (fuel : Nat) (c : Cont), c.1.WindowsBounded → (State.intakeRun fuel c).WindowsBounded
  | 0, _, b => b
  | _ + 1, (_, none), b => b
  | fuel + 1, (_, some x), b => State.intakeRun_windows fuel _ (State.WindowsBounded.intakeStep b x)

theorem State.WindowsBounded.intakeReply (b : s.WindowsBounded) (x : Reply) : (s.intakeReply x).WindowsBounded :=
  State.intakeRun_windows _ _ (b.intakeStep x)

theorem State.WindowsBounded.beginIntake (b : s.WindowsBounded) : s.beginIntake.WindowsBounded :=
  State.intakeRun_windows _ _ (State.beginProgram_windows (by exact b.bounded) 0)

/-! ### Finish and fault reports -/

theorem State.WindowsBounded.finishEnded (b : s.WindowsBounded) (p : Program) : (s.finishEnded p).WindowsBounded := by
  have ended : (s.setFinish p none).WindowsBounded := ((Shrinks.refl s).setFinish p none).windows b
  unfold State.finishEnded
  dsimp only
  split
  · exact (Shrinks.haltAdvance _ _ (.refl _)).windows ended
  · rename_i i hi _
    split
    · rename_i waits
      refine State.intakeRun_windows _ _ (State.IntakeAt.transition ⟨ended.bounded, fun j hj => ?_⟩)
      rw [hi] at hj
      cases hj
      exact waits.2
    · exact ended
  · exact ended

theorem State.WindowsBounded.finishHeld (b : s.WindowsBounded) (x : Report) (f : Failure) :
    (s.finishHeld x f).WindowsBounded :=
  ((((Shrinks.refl s).finishA _ _ _).hold _ _ _).windows b).finishEnded _

theorem State.WindowsBounded.finishFailed (b : s.WindowsBounded) (x : Report) (f : Failure) :
    (s.finishFailed x f).WindowsBounded := by
  unfold State.finishFailed
  dsimp only
  split <;> rename_i e
  · exact (((Shrinks.refl s).setFinish _ _).of_issue e).windows b
  · exact ((((Shrinks.refl s).setFinish _ _).of_issue e).windows b).finishHeld x f

theorem State.WindowsBounded.finishStateWrite (b : s.WindowsBounded) (x : Report) :
    (s.finishStateWrite x).WindowsBounded := by
  unfold State.finishStateWrite
  dsimp only
  split <;> rename_i e
  · exact (((Shrinks.refl s).setFinish _ _).of_issue e).windows b
  · exact ((((Shrinks.refl s).setFinish _ _).of_issue e).windows b).finishFailed x _
  · exact (((Shrinks.refl s).setFinish _ _).of_issue e).windows b

theorem State.WindowsBounded.finishOutcomeWrite (b : s.WindowsBounded) (x : Report) (o : Outcome)
    (pass size cells meanQ : Nat) : (s.finishOutcomeWrite x o pass size cells meanQ).WindowsBounded := by
  unfold State.finishOutcomeWrite
  dsimp only
  split <;> rename_i e
  · exact (((Shrinks.refl s).setFinish _ _).of_issue e).windows b
  · exact ((((Shrinks.refl s).setFinish _ _).of_issue e).windows b).finishFailed x _
  · exact (((Shrinks.refl s).setFinish _ _).of_issue e).windows b

theorem State.WindowsBounded.strictEnded (b : s.WindowsBounded) (x : Report) (f : Failure) (pass : Nat)
    (written : Bool) : (s.strictEnded x f pass written).WindowsBounded := by
  unfold State.strictEnded
  refine State.WindowsBounded.finishEnded (Shrinks.windows (Shrinks.hold ?_ _ _ _) b) _
  cases written with
  | false => exact .refl s
  | true => exact (Shrinks.refl s).modCtx _ fun _ => le_rfl

theorem State.WindowsBounded.strictWrite (b : s.WindowsBounded) (x : Report) (f : Failure) (pass : Nat) :
    (s.strictWrite x f pass).WindowsBounded := by
  unfold State.strictWrite
  dsimp only
  split <;> rename_i e
  · exact (((Shrinks.refl s).setFinish _ _).of_issue e).windows b
  · exact ((((Shrinks.refl s).setFinish _ _).of_issue e).windows b).strictEnded x f pass false

theorem State.WindowsBounded.finishReply (b : s.WindowsBounded) (p : Program) (x : Reply) :
    (s.finishReply p x).WindowsBounded := by
  unfold State.finishReply
  split
  · exact b
  · split
    · exact b.finishStateWrite _
    · exact b.finishFailed _ _
    · exact ((((Shrinks.refl s).finishA _ _ _).offIfDrained _).windows b).finishEnded _
    · exact b.finishFailed _ _
    · exact b.finishHeld _ _
    · split
      · exact b.strictEnded _ _ _ _
      · exact ((Shrinks.refl s).setFinish p none).windows b

theorem State.WindowsBounded.takeReportOf (b : s.WindowsBounded) (p : Program) (q : Report → Bool) :
    (s.takeReportOf p q).WindowsBounded := by
  unfold State.takeReportOf
  split
  · rename_i x rest _ _
    have taken : (s.setController { s.controller with reports := rest }).WindowsBounded :=
      ((Shrinks.refl s).setController _ (by rfl) (by rfl)).windows b
    unfold State.handleReport
    split
    · split
      · exact taken.finishOutcomeWrite _ _ _ _ _ _
      · exact taken.strictWrite _ _ _
    · exact taken
  · exact b

end Sys2Proof.Machine

/-! PROOFS. What every piece of work keeps: the queue of waiting commands, DIRECTORY, the interval number, the key slots, and the
invariants of the key unit, the cell store, the debts, the windows, the side queue and the fault record queue. -/

namespace Sys2Proof.Machine

/-- From s to t the waiting commands stay and the invariants hold on. -/
structure KeepsSound (s t : State) : Prop where
  pending : t.pending = s.pending
  keys : s.KeysSound → t.KeysSound
  store : s.StoreSound → t.StoreSound
  debts : s.DebtsBounded → t.DebtsBounded
  windows : s.WindowsBounded → t.WindowsBounded
  side : s.SideBounded → t.SideBounded
  queue : s.FaultQueueSound → t.FaultQueueSound

/-- From s to t, beside that, the registers and numbers stay that few commands alone may change. -/
structure Keeps (s t : State) : Prop extends KeepsSound s t where
  directory : t.control.directory = s.control.directory
  number : t.timer.number = s.timer.number
  slots : t.keys.slots = s.keys.slots

variable {r s t : State}

theorem KeepsSound.trans (a : KeepsSound r s) (b : KeepsSound s t) : KeepsSound r t where
  pending := b.pending.trans a.pending
  keys := b.keys ∘ a.keys
  store := b.store ∘ a.store
  debts := b.debts ∘ a.debts
  windows := b.windows ∘ a.windows
  side := b.side ∘ a.side
  queue := b.queue ∘ a.queue

theorem Keeps.refl (s : State) : Keeps s s := ⟨⟨rfl, id, id, id, id, id, id⟩, rfl, rfl, rfl⟩

theorem Keeps.trans (a : Keeps r s) (b : Keeps s t) : Keeps r t :=
  ⟨a.toKeepsSound.trans b.toKeepsSound, b.directory.trans a.directory, b.number.trans a.number, b.slots.trans a.slots⟩

/-- What few commands alone may change. -/
def State.unmoved (s : State) : List Instr × Long × Word × PerProgram KeyPair :=
  (s.pending, s.control.directory, s.timer.number, s.keys.slots)

/-- Work that goes on from s to t. -/
theorem Keeps.then (h : Keeps r s) (unmoved : t.unmoved = s.unmoved) (keys : s.KeysSound → t.KeysSound)
    (store : s.StoreSound → t.StoreSound) (debts : r.DebtsBounded → s.DebtsBounded → t.DebtsBounded)
    (windows : s.WindowsBounded → t.WindowsBounded) (side : s.SideBounded → t.SideBounded)
    (queue : s.FaultQueueSound → t.FaultQueueSound) : Keeps r t := by
  simp only [State.unmoved, Prod.mk.injEq] at unmoved
  obtain ⟨pending, directory, number, slots⟩ := unmoved
  exact ⟨⟨pending.trans h.pending, keys ∘ h.keys, store ∘ h.store, fun b => debts b (h.debts b), windows ∘ h.windows
    , side ∘ h.side, queue ∘ h.queue⟩, directory.trans h.directory, number.trans h.number, slots.trans h.slots⟩

/-- The parts of the state that the invariants beside the key unit's and the store's speak of. -/
def State.counted (s : State) :=
  (s.controller.programs, s.controller.intake, s.allocator.debt, s.allocator.reports, s.recoder.jobs, s.side.queue
    , s.side.reserved, s.reporter.faultQueue, s.reporter.faultWrite)

/-- Everything that the invariants speak of. -/
def State.watched (s : State) := (s.unmoved, s.keys, s.store.cells, s.store.residue, s.counted)

/-- Work that touches nothing of what the invariants speak of. -/
theorem Keeps.same (h : Keeps r s) (e : t.watched = s.watched) : Keeps r t := by
  simp only [State.watched, State.counted, Prod.mk.injEq] at e
  obtain ⟨unmoved, keys, cells, residue, programs, intake, debt, reports, jobs, waiting, reserved, faults, write⟩ := e
  refine h.then unmoved (fun b => ?_) (fun b => ?_) (fun _ b => ?_) (fun b => ?_) (fun b => ?_) (fun b => ?_)
  · rwa [State.KeysSound, keys]
  · rwa [State.StoreSound, cells, residue]
  · exact ⟨by rw [debt]; exact b.owed, by rw [reports]; exact b.reported, by rw [jobs]; exact b.carried⟩
  · exact ⟨by simpa only [State.ctx, programs] using b.bounded, by simpa only [State.ctx, programs, intake] using b.roomToTake⟩
  · rwa [State.SideBounded, waiting, reserved]
  · exact ⟨by rw [faults, write]; exact b.head, by rw [faults]; exact b.waiting⟩

/-! One clause of the invariants at a time: a change of one part of the state. -/

theorem Keeps.onlyKeys (h : Keeps r s) {x : Keys} (slots : x.slots = s.keys.slots)
    (keys : s.KeysSound → x.Sound ∧ x.ClearIsClear) : Keeps r (s.setKeys x) :=
  h.then (by simp [State.unmoved, slots]) keys id (fun _ b => ⟨b.owed, b.reported, b.carried⟩)
    (fun b => ⟨b.bounded, b.roomToTake⟩) id fun b => ⟨b.head, b.waiting⟩

theorem Keeps.onlyAllocator (h : Keeps r s) {x : Allocator}
    (debts : r.DebtsBounded → s.DebtsBounded → (s.setAllocator x).DebtsBounded) : Keeps r (s.setAllocator x) :=
  h.then rfl id id debts (fun b => ⟨b.bounded, b.roomToTake⟩) id fun b => ⟨b.head, b.waiting⟩

theorem Keeps.onlyController (h : Keeps r s) {x : Controller} (windows : s.WindowsBounded → (s.setController x).WindowsBounded) :
    Keeps r (s.setController x) :=
  h.then rfl id id (fun _ b => ⟨b.owed, b.reported, b.carried⟩) windows id fun b => ⟨b.head, b.waiting⟩

theorem Keeps.onlyReporter (h : Keeps r s) {x : Reporter} (queue : s.FaultQueueSound → (s.setReporter x).FaultQueueSound) :
    Keeps r (s.setReporter x) :=
  h.then rfl id id (fun _ b => ⟨b.owed, b.reported, b.carried⟩) (fun b => ⟨b.bounded, b.roomToTake⟩) id queue

/-- The work of the program controller, whose windows the laws of the windows speak of. -/
theorem Keeps.run (h : Keeps r s) (f : RunFrame s t) (windows : s.WindowsBounded → t.WindowsBounded) : Keeps r t :=
  h.then (by rw [State.unmoved, f.pending, f.control, f.timer, f.keys, State.unmoved]) f.sound
    (fun b => by rwa [State.StoreSound, f.store])
    (fun _ b => ⟨by rw [f.allocator]; exact b.owed, by rw [f.allocator]; exact b.reported
      , by rw [f.recoder]; exact b.carried⟩)
    windows (fun b => by rwa [State.SideBounded, f.side]) f.queue

theorem Keeps.runShrinks (h : Keeps r s) (f : RunFrame s t) (g : Shrinks s t) : Keeps r t := h.run f g.windows

/-! ### Accesses and events -/

theorem Keeps.issue (h : Keeps r s) (q : Request) : Keeps r (s.issue q).1 := by
  obtain ⟨l, hl⟩ := s.issue_setLink q
  rw [hl]
  exact h.same rfl

theorem Keeps.of_issue (h : Keeps r s) {q : Request} {o : Option Reply} (e : s.issue q = (t, o)) : Keeps r t := by
  have := h.issue q
  rwa [e] at this

theorem Keeps.raise (h : Keeps r s) (f : EventFlag) : Keeps r (s.raise f) := h.same rfl

theorem Keeps.complete (h : Keeps r s) (last : Option CommandName) (result : CmdResult) :
    Keeps r (s.complete last result) := h.same rfl

/-- A change of the control unit that leaves DIRECTORY. -/
theorem Keeps.setControl (h : Keeps r s) {c : Control} (directory : c.directory = s.control.directory) :
    Keeps r (s.setControl c) := h.same (by simp only [State.watched, State.unmoved, State.setControl_control, directory]; rfl)

/-! ### The cell store -/

theorem Keeps.setStore (h : Keeps r s) (x : Store)
    (wf : s.store.cells.wf = true ∧ s.store.residue.wf = true → x.cells.wf = true ∧ x.residue.wf = true) :
    Keeps r (s.setStore x) :=
  h.then rfl id wf (fun _ b => ⟨b.owed, b.reported, b.carried⟩) (fun b => ⟨b.bounded, b.roomToTake⟩) id
    fun b => ⟨b.head, b.waiting⟩

theorem Keeps.returnPages (h : Keeps r s) (pages : List Nat) : Keeps r (s.returnPages pages) :=
  h.setStore _ (Store.giveBack_wf pages)

theorem Keeps.returnJobs (h : Keeps r s) (jobs : List Job) : Keeps r (s.returnJobs jobs) := by
  induction jobs generalizing s with
  | nil => exact h
  | cons j rest ih => exact ih (h.returnPages j.pages)

/-! ### Jobs and their debts -/

theorem Recoder.mem_jobs {x : Recoder} {j : Job} : j ∈ x.jobs ↔ j ∈ x.queue ∨ ∃ e, (x.engine e).phase.job = some j := by
  have engines : (∃ e, (x.engine e).phase.job = some j) ↔ x.re0.phase.job = some j ∨ x.re1.phase.job = some j :=
    ⟨fun ⟨e, he⟩ => by cases e with
      | re0 => exact .inl he
      | re1 => exact .inr he, fun he => he.elim (fun h => ⟨.re0, h⟩) fun h => ⟨.re1, h⟩⟩
  simp [Recoder.jobs, engines]

theorem Keeps.setRecoder (h : Keeps r s) (x : Recoder)
    (carried : r.DebtsBounded → s.DebtsBounded → ∀ j ∈ x.jobs, j.debt ≤ Config.debtLimit) :
    Keeps r (s.setRecoder x) :=
  h.then rfl id id (fun a b => ⟨b.owed, b.reported, carried a b⟩) (fun b => ⟨b.bounded, b.roomToTake⟩) id
    fun b => ⟨b.head, b.waiting⟩

theorem Recoder.engine_setEngine_same (x : Recoder) (e : Engine) (y : EngineState) : (x.setEngine e y).engine e = y := by
  cases e <;> rfl

theorem Recoder.engine_setEngine_ne (x : Recoder) {e e' : Engine} (h : e' ≠ e) (y : EngineState) :
    (x.setEngine e y).engine e' = x.engine e' := by
  cases e with
  | re0 => cases e' with
    | re0 => exact absurd rfl h
    | re1 => rfl
  | re1 => cases e' with
    | re0 => rfl
    | re1 => exact absurd rfl h

@[simp] theorem Recoder.setEngine_queue (x : Recoder) (e : Engine) (y : EngineState) : (x.setEngine e y).queue = x.queue := by
  cases e <;> rfl

/-- With another state of one engine the jobs are those before and that engine's. -/
theorem Recoder.mem_jobs_setEngine {x : Recoder} {e : Engine} {y : EngineState} {j : Job} (h : j ∈ (x.setEngine e y).jobs) :
    j ∈ x.jobs ∨ y.phase.job = some j := by
  obtain hq | ⟨e', he⟩ := Recoder.mem_jobs.mp h
  · rw [Recoder.setEngine_queue] at hq
    exact .inl (Recoder.mem_jobs.mpr (.inl hq))
  · by_cases same : e' = e
    · subst same
      rw [Recoder.engine_setEngine_same] at he
      exact .inr he
    · rw [Recoder.engine_setEngine_ne _ same] at he
      exact .inl (Recoder.mem_jobs.mpr (.inr ⟨e', he⟩))

theorem Keeps.setPhase (h : Keeps r s) (e : Engine) (ph : EnginePhase)
    (hj : r.DebtsBounded → ∀ j, ph.job = some j → j.debt ≤ Config.debtLimit) : Keeps r (s.setPhase e ph) :=
  h.setRecoder _ fun a b j hmem => (Recoder.mem_jobs_setEngine hmem).elim (b.carried j) (hj a j)

theorem Keeps.setIdle (h : Keeps r s) (e : Engine) : Keeps r (s.setPhase e .idle) := h.setPhase e .idle fun _ _ hj => by cases hj

theorem Keeps.setScratch (h : Keeps r s) (e : Engine) (bytes : List Byte) : Keeps r (s.setScratch e bytes) :=
  h.setRecoder _ fun _ b j hmem => (Recoder.mem_jobs_setEngine hmem).elim (b.carried j) fun hj =>
    b.carried j (Recoder.mem_jobs.mpr (.inr ⟨e, hj⟩))

theorem Keeps.giveSpare (h : Keeps r s) (n : Nat) : Keeps r (s.giveSpare n) := h.same rfl

theorem Keeps.setFigures (h : Keeps r s) (p : Program) (f : JobFigures) : Keeps r (s.setFigures p f) := h.same rfl

theorem Keeps.sendReport (h : Keeps r s) (j : Job) (body : ReportBody) : Keeps r (s.sendReport j body) := h.same rfl

theorem Keeps.sendCompletion (h : Keeps r s) (j : Job) (o : Outcome) (size cells meanQ debt : Nat)
    (hd : r.DebtsBounded → debt ≤ Config.debtLimit) : Keeps r (s.sendCompletion j o size cells meanQ debt) := by
  refine h.onlyAllocator fun a b => ⟨b.owed, fun x hx => ?_, b.carried⟩
  obtain hx | hx := List.mem_append.mp hx
  · exact b.reported x hx
  · obtain rfl := List.mem_singleton.mp hx
    exact hd a

theorem Keeps.dropAccesses (h : Keeps r s) (p : Agent → Bool) : Keeps r (s.dropAccesses p) := h.same rfl

theorem Keeps.dropJobs (h : Keeps r s) : Keeps r s.dropJobs := by
  refine (h.dropAccesses Agent.isEngine).setRecoder _ fun _ _ j hj => ?_
  obtain hq | ⟨e, he⟩ := Recoder.mem_jobs.mp hj
  · simp at hq
  · cases e <;> cases he

theorem Keeps.haltRecoder (h : Keeps r s) : Keeps r s.haltRecoder :=
  (h.returnJobs s.recoder.jobs).dropJobs.same rfl

/-! ### The endings of jobs and the passes -/

theorem Keeps.holdEnding (h : Keeps r s) (e : Engine) (j : Job) (o : Outcome) : Keeps r (s.holdEnding e j o) :=
  (((((h.returnPages _).giveSpare _).setFigures _ _).sendReport _ _).sendCompletion _ _ _ _ _ _ fun _ => Nat.zero_le _).setIdle e

theorem Keeps.faultEnding (h : Keeps r s) (e : Engine) (j : Job) (f : Failure) : Keeps r (s.faultEnding e j f) :=
  ((((h.returnPages _).giveSpare _).setFigures _ _).sendReport _ _).setIdle e

section
variable {j : Job} (h : Keeps r s) (hj : r.DebtsBounded → j.debt ≤ Config.debtLimit) (e : Engine)
include h hj

theorem Keeps.setCoding (w : PassWork) : Keeps r (s.setPhase e (.coding j w)) :=
  h.setPhase e _ fun a _ e => by cases e; exact hj a

theorem Keeps.setPassEnded (w : PassWork) : Keeps r (s.setPhase e (.passEnded j w)) :=
  h.setPhase e _ fun a _ e => by cases e; exact hj a

theorem Keeps.readSlice (w : PassWork) : Keeps r (s.readSlice e j w).1 := by
  unfold State.readSlice
  split
  · exact h.setPassEnded hj e w
  · exact (h.setCoding hj e w).issue _

theorem Keeps.startPass (pass : Nat) (source : Source) (quants : List Nat) (cutoff : Nat)
    (limits : List (Nat × StopReason)) : Keeps r (s.startPass e j pass source quants cutoff limits).1 :=
  (h.setScratch e _).readSlice (j := { j with pass := pass }) hj e _

end

theorem Keeps.takeJob (h : Keeps r s) (e : Engine) : Keeps r (s.takeJob e).1 := by
  unfold State.takeJob
  split
  · rename_i j rest _ hq
    have queued : ∀ x ∈ j :: rest, x ∈ s.recoder.jobs := fun x hx => Recoder.mem_jobs.mpr (.inl (hq ▸ hx))
    refine Keeps.startPass (h.setRecoder _ fun _ b x hx => ?_)
      (fun a => (h.debts a).carried j (queued j List.mem_cons_self)) e _ _ _ _ _
    obtain hx | hx := Recoder.mem_jobs.mp hx
    · exact b.carried x (queued x (List.mem_cons_of_mem _ hx))
    · exact b.carried x (Recoder.mem_jobs.mpr (.inr hx))
  · exact h

theorem Keeps.contentFault (h : Keeps r s) (e : Engine) (j : Job) (f : Failure) : Keeps r (s.contentFault e j f).1 := by
  unfold State.contentFault
  split
  · exact (h.holdEnding e j _).takeJob e
  · exact (h.faultEnding e j f).takeJob e

theorem Keeps.codeNext {j : Job} (h : Keeps r s) (hj : r.DebtsBounded → j.debt ≤ Config.debtLimit) (e : Engine)
    (w : PassWork) (data : List Byte) : Keeps r (s.codeNext e j w data).1 := by
  unfold State.codeNext
  split
  · exact h
  · split
    · exact (h.holdEnding e j _).takeJob e
    · split
      · exact h.setPassEnded hj e _
      · exact (h.setScratch e _).readSlice hj e _

/-- R63: the job an engine holds owes at most 8 cells. -/
theorem State.DebtsBounded.held (b : s.DebtsBounded) {e : Engine} {j : Job} (hj : (s.recoder.engine e).phase.job = some j) :
    j.debt ≤ Config.debtLimit :=
  b.carried j (Recoder.mem_jobs.mpr (.inr ⟨e, hj⟩))

theorem Keeps.engineStep (h : Keeps r s) (e : Engine) (x : Reply) : Keeps r (s.engineStep e x).1 := by
  unfold State.engineStep
  split
  · rename_i phase
    exact h.codeNext (fun a => (h.debts a).held (e := e) (by rw [phase]; rfl)) e _ _
  · exact h.contentFault e _ _
  · exact h

theorem Keeps.engineRun (e : Engine) : ∀ (fuel : Nat) (c : Cont), Keeps r c.1 → Keeps r (State.engineRun e fuel c)
  | 0, _, h => h
  | _ + 1, (_, none), h => h
  | fuel + 1, (_, some x), h => Keeps.engineRun e fuel _ (Keeps.engineStep h e x)

theorem Keeps.engineGoes {c : Cont} (h : Keeps r c.1) (e : Engine) : Keeps r (State.engineGoes e c) :=
  Keeps.engineRun e _ c h

theorem Keeps.engineReply (h : Keeps r s) (e : Engine) (x : Reply) : Keeps r (s.engineReply e x) :=
  (h.engineStep e x).engineGoes e

theorem Keeps.engineTakes (h : Keeps r s) (e : Engine) : Keeps r (s.engineTakes e) := (h.takeJob e).engineGoes e

theorem Keeps.endsHeld (h : Keeps r s) (e : Engine) (j : Job) (o : Outcome) : Keeps r (s.endsHeld e j o) :=
  (h.holdEnding e j o).engineTakes e

/-! ### Builds -/

theorem Keeps.request (h : Keeps r s) {n : Nat} {pages : List Nat} {x : Store} (e : s.store.request n = some (pages, x)) :
    Keeps r (s.setStore x) := by
  obtain ⟨-, -, rfl⟩ := Store.request_some e
  exact h.setStore _ id

section
variable {j : Job} (h : Keeps r s) (hj : r.DebtsBounded → j.debt ≤ Config.debtLimit) (e : Engine)
include h hj

theorem Keeps.startBuild (w : PassWork) : Keeps r (s.startBuild e j w) := by
  have withMean := fun m => h.setScratch e ((s.recoder.engine e).scratch.set 6 m)
  unfold State.startBuild
  dsimp only
  split
  · exact (withMean _).endsHeld e j _
  · split
    · exact (withMean _).endsHeld e j _
    · rename_i served
      exact ((withMean _).request served).setPhase e _ fun a _ eq => by cases eq; exact hj a

theorem Keeps.startPass2 (w : PassWork) : Keeps r (s.startPass2 e j w) := (h.startPass hj e _ _ _ _ _).engineGoes e

theorem Keeps.startFloor (w : PassWork) : Keeps r (s.startFloor e j w) := (h.startPass hj e _ _ _ _ _).engineGoes e

end

/-! ### Cells -/

theorem exactly_length (n : Nat) (bs : List Byte) : (exactly n bs).length = n := by
  rw [exactly, zeros, List.length_append, List.length_take, List.length_replicate]
  omega

theorem beBytes_length (n v : Nat) : (beBytes n v).length = n := by
  rw [beBytes, List.length_reverse, leBytes_length]

theorem headerBytes_length (x : CellHeader) : (headerBytes x).length = 8 := by
  simp [headerBytes, beBytes_length]

/-- R113: a cell has 200 bytes. -/
theorem cellOf_length (x : CellHeader) (payload : List Byte) : (cellOf x payload).length = Config.cellBytes := by
  rw [cellOf, List.length_append, headerBytes_length, exactly_length]
  rfl

theorem pictureCell_length (p : Program) (count : BitVec 4) (interval : Word) (sequence : Word)
    (key : Option (Parity × Long)) (j : Nat) (payload : List Byte) :
    (pictureCell p count interval sequence key j payload).length = Config.cellBytes := by
  unfold pictureCell
  dsimp only
  split <;> exact cellOf_length _ _

theorem pictureCells_bytes (p : Program) (count : BitVec 4) (interval sequence : Word) (key : Option (Parity × Long)) :
    ∀ (payloads : List (List Byte)) (j : Nat), ∀ c ∈ pictureCells p count interval sequence key j payloads,
      c.length = Config.cellBytes
  | [], _, c, hc => by simp [pictureCells] at hc
  | x :: rest, j, c, hc => by
    obtain rfl | hc := List.mem_cons.mp hc
    · exact pictureCell_length ..
    · exact pictureCells_bytes p count interval sequence key rest (j + 1) c hc

theorem sideCells_bytes (p : Program) (count : BitVec 4) (interval : Word) (index : Nat) :
    ∀ (payloads : List (List Byte)) (j : Nat), ∀ c ∈ sideCells p count interval index j payloads, c.length = Config.cellBytes
  | [], _, c, hc => by simp [sideCells] at hc
  | x :: rest, j, c, hc => by
    obtain rfl | hc := List.mem_cons.mp hc
    · exact cellOf_length _ _
    · exact sideCells_bytes p count interval index rest (j + 1) c hc

/-- Cells that are numbered and placed are the cells themselves. -/
theorem mem_of_mem_placed {cells : List (List Byte)} {place : Nat → Nat} {x : Nat × List Byte}
    (h : x ∈ cells.zipIdx.map fun e => (place e.2, e.1)) : x.2 ∈ cells := by
  obtain ⟨y, hy, rfl⟩ := List.mem_map.mp h
  exact List.fst_mem_of_mem_zipIdx hy

theorem mem_of_mem_placeCells {pages : List Nat} {cells : List (List Byte)} {x : Nat × List Byte}
    (h : x ∈ placeCells pages cells) : x.2 ∈ cells :=
  mem_of_mem_placed
    (place := fun i => placeIndex (pages.getD (i / Config.placesPerPage) 0) (i % Config.placesPerPage)) h

theorem Keeps.linkCells (h : Keeps r s) (j : Job) {c : JobCells} (hnow : ∀ x ∈ c.now, x.length = Config.cellBytes)
    (hlater : ∀ x ∈ c.later, x.length = Config.cellBytes) : Keeps r (s.linkCells j c) := by
  have written := h.setStore
    { s.store with
      cells := s.store.cells.writeAll (placeCells c.nowPages c.now ++ placeCells c.laterPages c.later) }
    fun wf => ⟨CellMemory.wf_writeAll wf.1 fun x hx => ?_, wf.2⟩
  · exact Keeps.returnPages (written.same (by rfl)) _
  · obtain hx | hx := List.mem_append.mp hx
    · exact hnow _ (mem_of_mem_placeCells hx)
    · exact hlater _ (mem_of_mem_placeCells hx)

theorem Keeps.completeJob {j : Job} (h : Keeps r s) (hj : r.DebtsBounded → j.debt ≤ Config.debtLimit) (e : Engine)
    (b : Build) : Keeps r (s.completeJob e j b) := by
  have cells : ∀ x ∈ s.buildCells e j b, x.length = Config.cellBytes := pictureCells_bytes _ _ _ _ _ _ _
  have linked := h.linkCells j (c := divideCells j.budget j.draw j.pages (s.buildCells e j b))
    (fun x hx => cells x (List.mem_of_mem_take hx)) (fun x hx => cells x (List.mem_of_mem_drop hx))
  exact ((((linked.setRecoder _ (by exact fun _ b => b.carried)).setFigures _ _).sendReport _ _).sendCompletion _ _ _ _ _ _ hj).setIdle e

/-! ### The side path -/

theorem Keeps.setSide (h : Keeps r s) (x : Side)
    (side : s.side.queue.length + s.side.reserved.length ≤ Config.sideQueueLimit →
      x.queue.length + x.reserved.length ≤ Config.sideQueueLimit) : Keeps r (s.setSide x) :=
  h.then rfl id id (fun _ b => ⟨b.owed, b.reported, b.carried⟩) (fun b => ⟨b.bounded, b.roomToTake⟩) side
    fun b => ⟨b.head, b.waiting⟩

theorem Keeps.noteSideFault (h : Keeps r s) (p : Program) : Keeps r (s.noteSideFault p) := h.same rfl

theorem length_markBuilding (rs : List Reserved) : (markBuilding rs).length = rs.length := by
  induction rs with
  | nil => rfl
  | cons x rest ih =>
    rw [markBuilding]
    split
    · rfl
    · rw [List.length_cons, List.length_cons, ih]

theorem length_markBuilt (rs : List Reserved) : (markBuilt rs).length = rs.length := List.length_map _

theorem Keeps.sideFault (h : Keeps r s) : Keeps r s.sideFault := by
  unfold State.sideFault
  split
  · exact h
  · refine ((h.returnPages _).setSide _ fun b => ?_).noteSideFault _
    exact (Nat.add_le_add_left (List.length_filter_le _ _) _).trans b

theorem Keeps.startSideBuild (fuel : Nat) (h : Keeps r s) : Keeps r (s.startSideBuild fuel) := by
  induction fuel generalizing s with
  | zero => exact h
  | succ fuel ih =>
    unfold State.startSideBuild
    split
    · exact h
    · split
      · exact h
      · split
        · rename_i page store served
          have building := fun m => (h.request served).setSide
            { s.side with reserved := markBuilding s.side.reserved
                          build := some { message := m, page := page, data := none } } fun b => by
              rw [length_markBuilding]
              exact b
          dsimp only
          split <;> rename_i e
          · exact (building _).of_issue e
          · exact ih ((building _).of_issue e).sideFault
        · exact h.same rfl

theorem Keeps.nextSideBuild (h : Keeps r s) : Keeps r s.nextSideBuild := h.startSideBuild _

theorem Keeps.sideReply (h : Keeps r s) (x : Reply) : Keeps r (s.sideReply x) := by
  unfold State.sideReply
  split
  · exact h
  · exact h.same rfl
  · exact h.sideFault.nextSideBuild

theorem Keeps.linkSideBuild (h : Keeps r s) (b : SideBuild) (data : List Byte) : Keeps r (s.linkSideBuild b data) := by
  have written := h.setStore
    { s.store with
      cells := s.store.cells.writeAll (pageWrites b.page
        (sideCells b.message.program (s.side.counters.look b.message.program) (s.timer.number + 1) b.message.index 0
          (payloads data))) }
    fun wf => ⟨CellMemory.wf_writeAll wf.1 fun x hx => sideCells_bytes _ _ _ _ _ _ _ (mem_of_mem_placed hx), wf.2⟩
  have built : Keeps r (State.setSide _ { s.side with
      reserved := markBuilt s.side.reserved }) := written.setSide _ fun bound => by
    rw [length_markBuilt]
    exact bound
  exact built.same (by rfl)

theorem Keeps.endReservation (h : Keeps r s) : Keeps r s.endReservation := by
  have shrinks : s.SideBounded →
      (((s.side.reserved.filter fun x => x.state ≠ .built).map Reserved.message) ++ s.side.queue).length + 0 ≤
        Config.sideQueueLimit := fun b => by
    have := List.length_filter_le (fun x => decide (x.state ≠ .built)) s.side.reserved
    rw [State.SideBounded] at b
    rw [List.length_append, List.length_map]
    omega
  unfold State.endReservation
  cases hb : s.side.build with
  | none => exact (h.dropAccesses _).setSide _ (by exact shrinks)
  | some b => exact ((h.returnPages [b.page]).dropAccesses _).setSide _ (by exact shrinks)

theorem Keeps.haltSide (h : Keeps r s) : Keeps r s.haltSide :=
  h.endReservation.setSide _ fun b => (Nat.add_le_add_right (Nat.zero_le _) _).trans b

theorem Keeps.stopLine (h : Keeps r s) : Keeps r s.stopLine :=
  (h.returnPages _).same (by rfl)

end Sys2Proof.Machine

/-! PROOFS. The invariants over the blocks' larger work: reports and fault records, the round of an interval, START, the table
loads, the page test and HALT. -/

namespace Sys2Proof.Machine

variable {r s t : State}

/-- A fold of steps that each keep what holds. -/
theorem Keeps.foldl {α : Type} {f : State → α → State} (l : List α)
    (hf : ∀ a ∈ l, ∀ {s : State}, Keeps r s → Keeps r (f s a)) (h : Keeps r s) : Keeps r (l.foldl f s) := by
  induction l generalizing s with
  | nil => exact h
  | cons a l ih => exact ih (fun b hb => hf b (List.mem_cons_of_mem _ hb)) (hf a List.mem_cons_self h)

/-! ### Fault records and reports -/

theorem Keeps.setReporter (h : Keeps r s) (x : Reporter) (hq : x.faultQueue = s.reporter.faultQueue)
    (hw : x.faultWrite = s.reporter.faultWrite) : Keeps r (s.setReporter x) :=
  h.onlyReporter fun b => ⟨by simpa [hq, hw] using b.head, by simpa [hq] using b.waiting⟩

theorem Keeps.faultReply (h : Keeps r s) (x : Reply) : Keeps r (s.faultReply x) := by
  have ends : s.reporter.faultWrite = some .waiting → ∀ written,
      Keeps r (s.setReporter { s.reporter with faultWrite := some (.ended written) }) := fun hw written =>
    h.onlyReporter fun b => ⟨by simpa [hw] using b.head, b.waiting⟩
  unfold State.faultReply
  split
  · exact ends ‹_› true
  · exact ends ‹_› false
  · exact h

/-- R166: the request at the head leaves the queue, and the write that then begins is that of the next one. -/
theorem Keeps.nextFaultWrite {req : FaultRequest} {rest : List FaultRequest} {u : State}
    (hq : s.reporter.faultQueue = req :: rest) (hu : Keeps s (u.setReporter s.reporter))
    (hrest : u.reporter.faultQueue = rest) : Keeps s u.startFaultWrite := by
  obtain ⟨l, w, e, -, hw, -⟩ := u.startFaultWrite_cases
  rw [e]
  have same : Keeps s ((u.setLink l).setReporter s.reporter) := hu.same rfl
  refine same.onlyReporter (x := { u.reporter with faultWrite := w }) fun b => ⟨?head, ?waiting⟩
  case head => exact hw.symm
  case waiting =>
    have behind := b.waiting
    rw [State.setReporter_reporter, hq, List.tail_cons] at behind
    rw [State.setReporter_reporter, hrest]
    exact behind.sublist (List.Sublist.map _ (List.tail_sublist rest))

theorem Keeps.note (h : Keeps r s) (p : Program) (f : Notes → Notes) : Keeps r (s.note p f) := h.same rfl

theorem Keeps.setTimer (h : Keeps r s) {x : Timer} (number : x.number = s.timer.number) :
    Keeps r (s.setTimer x) := h.same (by simp only [State.watched, State.unmoved, State.setTimer_timer, number]; rfl)

/-- A change of the allocator that leaves the debts and the reports on their way. -/
theorem Keeps.setAllocator (h : Keeps r s) {x : Allocator} (debt : x.debt = s.allocator.debt)
    (reports : x.reports = s.allocator.reports) : Keeps r (s.setAllocator x) :=
  h.onlyAllocator fun _ b => ⟨by rw [State.setAllocator_allocator, debt]; exact b.owed
    , by rw [State.setAllocator_allocator, reports]; exact b.reported, b.carried⟩

/-- A change of the controller that ends its intake, and so any take in progress. -/
theorem Keeps.endIntake (h : Keeps r s) {c : Controller} (hp : c.programs = s.controller.programs)
    (hi : c.intake = none) : Keeps r (s.setController c) := by
  refine h.onlyController fun b => State.windowsBounded_of_intake (fun q => ?_) fun i e => ?_
  · rw [State.ctx, State.setController_controller, hp]
    exact b.bounded q
  · rw [State.setController_controller, hi] at e
    cases e

theorem Keeps.enterIdle (h : Keeps r s) : Keeps r s.enterIdle := by
  unfold State.enterIdle
  split
  · exact Keeps.setReporter (Keeps.setAllocator (Keeps.endIntake (Keeps.setTimer
      (Keeps.setControl (h.dropAccesses _).haltRecoder.endReservation.stopLine (by rfl)) (by rfl)) (by rfl) (by rfl))
        (by rfl) (by rfl)) _ (by rfl) (by rfl)
  · exact h

theorem Keeps.startReport (h : Keeps r s) : Keeps r s.startReport := by
  unfold State.startReport
  split
  · exact (h.setReporter _ (by rfl) (by rfl)).issue _
  · exact h

theorem Keeps.endReport (h : Keeps r s) (f : Figures) : Keeps r (s.endReport f) := by
  have ended := h.setReporter { s.reporter with work := none } rfl rfl
  unfold State.endReport
  dsimp only
  split
  · exact ended.enterIdle
  · exact ended.startReport

theorem Keeps.stopReporting (h : Keeps r s) (f : Figures) : Keeps r (s.stopReporting f) := by
  have stopped := (h.setReporter { s.reporter with isOn := false, work := none, waiting := [] } rfl rfl).raise .reportSkipped
  unfold State.stopReporting
  dsimp only
  split
  · exact stopped.enterIdle
  · exact stopped

theorem Keeps.reportIndexRead (h : Keeps r s) (f : Figures) (c : Nat) : Keeps r (s.reportIndexRead f c) := by
  unfold State.reportIndexRead
  split
  · exact ((h.setReporter _ (by rfl) (by rfl)).raise _).endReport f
  · split <;> rename_i e
    · exact (h.setReporter _ (by rfl) (by rfl)).of_issue e
    · exact ((h.setReporter _ (by rfl) (by rfl)).of_issue e).stopReporting f

theorem Keeps.reportReply (h : Keeps r s) (x : Reply) : Keeps r (s.reportReply x) := by
  unfold State.reportReply
  split
  · exact h
  · split
    · exact h.stopReporting _
    · exact h.reportIndexRead _ _
    · exact (h.setReporter _ (by rfl) (by rfl)).issue _
    · exact ((h.setReporter _ (by rfl) (by rfl)).raise _).endReport _

/-! ### Parity decisions -/

@[simp] theorem ParityRecord.decision_scrambled (x : ParityRecord) (slots : KeyPair) (m : Word) :
    (x.decision slots m).scrambled = x.scrambled := by
  unfold ParityRecord.decision
  dsimp only
  split
  · rfl
  · split <;> rfl

/-- R106: a record in force before a decision or put in force by it names no slot that is INSTALLING. -/
theorem ParityRecord.decision_active {x : ParityRecord} {slots : KeyPair} {m : Word}
    (h : x.inForce = true → ∀ q, x.active = some q → slots.slot q ≠ .installing) :
    (x.decision slots m).inForce = true → ∀ q, (x.decision slots m).active = some q → slots.slot q ≠ .installing := by
  unfold ParityRecord.decision
  dsimp only
  split
  · rename_i ready
    intro _ q hq hslot
    obtain ⟨y, hy, rfl⟩ := Option.map_eq_some_iff.mp hq
    simp [hy, hslot, KeySlot.state] at ready
  · split
    · exact h
    · intro even q hq hslot
      cases hq
      change slots.even = .installing at hslot
      simp [hslot, KeySlot.state] at even

theorem Keys.decideParities_sound {k : Keys} (h : k.Sound ∧ k.ClearIsClear) (on : Program → Bool) (m : Word) :
    (k.decideParities on m).Sound ∧ (k.decideParities on m).ClearIsClear := by
  obtain ⟨sound, clear⟩ := h
  have record : ∀ p, (k.decideParities on m).records.look p =
      if (k.records.look p).scrambled && on p then (k.records.look p).decision (k.slots.look p) m else k.records.look p :=
    fun p => PerProgram.look_tabulate _ p
  refine ⟨⟨sound.busy, sound.installing, fun p q hp => ?active⟩, fun p hp => ?clear⟩
  case active =>
    have before : (k.records.look p).inForce = true → ∀ q, (k.records.look p).active = some q →
        (k.slots.look p).slot q ≠ .installing :=
      fun hforce q hactive => sound.active p q ((k.isProtected_iff p q).mpr ⟨hforce, hactive⟩)
    rw [Keys.isProtected_iff, record] at hp
    split at hp
    · exact ParityRecord.decision_active before hp.1 q hp.2
    · exact before hp.1 q hp.2
  case clear =>
    rw [record] at hp ⊢
    split at hp
    · rename_i decided
      rw [ParityRecord.decision_scrambled] at hp
      simp [hp] at decided
    · rename_i kept
      rw [if_neg kept]
      exact clear p hp

/-! ### The allocation -/

theorem mem_insertJob {j x : Job} {l : List Job} (h : x ∈ insertJob j l) : x = j ∨ x ∈ l := by
  induction l with
  | nil => exact .inl (List.mem_singleton.mp h)
  | cons k rest ih =>
    rw [insertJob] at h
    split at h
    · exact List.mem_cons.mp h
    · obtain rfl | h := List.mem_cons.mp h
      · exact .inr List.mem_cons_self
      · exact (ih h).imp_right (List.mem_cons_of_mem _)

theorem Keeps.modCtx (h : Keeps r s) (p : Program) {f : ProgramCtx → ProgramCtx}
    (hf : ∀ c : ProgramCtx, (f c).window.count ≤ c.window.count) : Keeps r (s.modCtx p f) :=
  h.onlyController ((Shrinks.refl s).modCtx p hf).windows

theorem Keeps.produceCell (h : Keeps r s) (p : Program) (sequence : BitVec 16) : Keeps r (s.produceCell p sequence) :=
  h.same rfl

theorem Keeps.grantJob (h : Keeps r s) (interval : Word) (g : Grant) : Keeps r (State.grantJob interval s g) := by
  refine Keeps.produceCell (h.setRecoder _ fun _ b j hj => ?_) _ _
  obtain hq | hq := Recoder.mem_jobs.mp hj
  · obtain rfl | hq := mem_insertJob hq
    · exact Nat.zero_le _
    · exact b.carried j (Recoder.mem_jobs.mpr (.inl hq))
  · exact b.carried j (Recoder.mem_jobs.mpr (.inr hq))

theorem State.storeSides_side (sides : List (Program × List SlotSide)) (s : State) :
    (sides.foldl State.storeSides s).side = s.side := by
  induction sides generalizing s with
  | nil => rfl
  | cons x rest ih => exact ih (s.storeSides x)

/-- R139: a join stops at 32 messages. -/
theorem joinSides_length (sMax : Nat) (p : Program) (key : Byte) (sides : List SlotSide) (index : Nat)
    (queue : List Message) (h : queue.length ≤ Config.sideQueueLimit) :
    (joinSides sMax p key index sides queue).2.length ≤ Config.sideQueueLimit := by
  induction sides generalizing index queue with
  | nil => exact h
  | cons x rest ih =>
    rw [joinSides]
    dsimp only
    refine ih _ _ ?_
    split
    · exact h
    · split
      · exact h
      · split
        · exact h
        · rw [List.length_append, List.length_singleton]
          omega

theorem State.joinFrom_length (s : State) (ps : List Program) (queue : List Message)
    (h : queue.length ≤ Config.sideQueueLimit) : (s.joinFrom ps queue).2.length ≤ Config.sideQueueLimit := by
  induction ps generalizing queue with
  | nil => exact h
  | cons p rest ih => exact ih _ (joinSides_length _ _ _ _ _ _ h)

theorem reserveFrom_append (sMax used : Nat) (queue : List Message) :
    (reserveFrom sMax used queue).1 ++ (reserveFrom sMax used queue).2 = queue := by
  induction queue generalizing used with
  | nil => rfl
  | cons m rest ih =>
    rw [reserveFrom]
    split
    · exact congrArg (m :: ·) (ih _)
    · rfl

theorem Keeps.joinAndReserve (h : Keeps r s) (coding : List Program) : Keeps r (s.joinAndReserve coding) := by
  have stored : Keeps r ((s.joinFrom coding s.side.queue).1.foldl State.storeSides s) :=
    h.foldl (f := State.storeSides) _ fun x _ _ hu => hu.modCtx x.1 fun _ => le_rfl
  refine stored.setSide _ fun b => ?_
  rw [State.storeSides_side] at b
  have joined := s.joinFrom_length coding s.side.queue ((Nat.le_add_right _ _).trans b)
  rw [← reserveFrom_append s.settingsD.sMax 0 (s.joinFrom coding s.side.queue).2, List.length_append, Nat.add_comm] at joined
  rw [List.length_map]
  exact joined

theorem Keeps.applyAllocation (h : Keeps r s) (a : Allocation) : Keeps r (s.applyAllocation a) := by
  have primed := h.foldl (f := State.runPrimed) a.primed fun p _ _ hu => hu.modCtx p fun _ => le_rfl
  have completed : Keeps r
      ((a.primed.foldl State.runPrimed s).setAllocator ((a.primed.foldl State.runPrimed s).allocator.completed a)) :=
    primed.onlyAllocator fun _ b => ⟨fun p => by
      rw [State.setAllocator_allocator, Allocator.completed_debt]
      exact Nat.zero_le _, b.reported, b.carried⟩
  have granted := completed.foldl (f := State.grantJob a.interval) a.grants fun g _ _ hu => hu.grantJob _ g
  have held := granted.foldl (f := State.grantHold) a.holds fun x _ _ hu => hu.produceCell x.program 0
  exact Keeps.onlyKeys ((held.setRecoder _ (by exact fun _ b => b.carried)).joinAndReserve _) (by rfl) (by exact fun b => Keys.decideParities_sound b _ _)

theorem Keeps.startRoundStatus (h : Keeps r s) : Keeps r s.startRoundStatus := by
  have seen : Keeps r (s.setController { s.controller with statusSeen := true }) := h.same rfl
  exact seen.runShrinks (RunFrame.refl _).startStatus (Shrinks.refl _).startStatus

theorem Keeps.startRoundWork (h : Keeps r s) : Keeps r s.startRoundWork := ((h.engineTakes _).engineTakes _).nextSideBuild

theorem Keeps.completeAtBoundary (h : Keeps r s) : Keeps r s.completeAtBoundary := by
  unfold State.completeAtBoundary
  split
  · exact h
  · exact (h.applyAllocation _).startRoundStatus

/-! ### Completion reports and the boundary -/

theorem Keeps.append (h : Keeps r s) (p : Program) (size : Nat) : Keeps r (s.append p size) := h.same rfl

theorem Keeps.takeCompletionReport (h : Keeps r s) {x : CompletionReport}
    (hx : r.DebtsBounded → x.debt ≤ Config.debtLimit) : Keeps r (s.takeCompletionReport x) := by
  refine (h.append x.program x.size).onlyAllocator fun a b => ⟨fun p => ?_, b.reported, b.carried⟩
  change (PerProgram.put _ x.program x.debt).look p ≤ _
  rw [PerProgram.look_put]
  split
  · exact hx a
  · exact b.owed p

/-- R61: fewer reports are on their way. -/
theorem Keeps.dropReports (h : Keeps r s) (rest : List CompletionReport) (hr : ∀ x ∈ rest, x ∈ s.allocator.reports) :
    Keeps r (s.setAllocator { s.allocator with reports := rest }) :=
  h.onlyAllocator fun _ b => ⟨b.owed, fun x hx => b.reported x (hr x hx), b.carried⟩

theorem Keeps.takeSentReports (h : Keeps r s) : Keeps r s.takeSentReports :=
  Keeps.foldl (f := State.takeCompletionReport) _
    (fun _ hx _ hu => hu.takeCompletionReport fun a => (h.debts a).reported _ (List.mem_of_mem_filter hx))
    (h.dropReports _ fun _ hx => List.mem_of_mem_filter hx)

theorem Keeps.closeInterval (h : Keeps r s) : Keeps r s.closeInterval := by
  have appended := Keeps.foldl (f := fun s p => State.append s p 8)
    ({ s.takeSentReports.allocator with inFlight := none } : Allocator).unreported (fun p _ _ hu => hu.append p 8)
    (Keeps.setAllocator h.takeSentReports (x := { s.takeSentReports.allocator with inFlight := none }) rfl rfl)
  unfold State.closeInterval
  dsimp only
  split
  · exact appended.onlyAllocator fun _ b => ⟨fun p => by
      rw [State.setAllocator_allocator, PerProgram.look_fill]
      exact Nat.zero_le _, b.reported, b.carried⟩
  · exact appended

theorem Keeps.lateJob (h : Keeps r s) (j : Job) : Keeps r (s.lateJob j) :=
  Keeps.sendReport (h.setFigures j.program { outcome := some .late, pass := j.pass, cells := 1, meanQ := 0 }) j _

theorem Keeps.lateJobs (h : Keeps r s) : Keeps r s.lateJobs :=
  Keeps.dropJobs (h.foldl (f := State.lateJob) s.recoder.jobs fun j _ _ hu => hu.lateJob j)

theorem Keeps.swapLine (h : Keeps r s) : Keeps r s.swapLine.1 := by
  have swapped : Keeps r ((s.returnPages s.line.sendingPages).setLine s.line.swap) :=
    (h.returnPages _).same rfl
  unfold State.swapLine
  dsimp only
  split
  · exact swapped.raise _
  · exact swapped

theorem State.swapLists_true (s : State) (jobs : List Job) :
    s.swapLists true jobs = (s.swapLine.1.returnJobs jobs, s.swapLine.2) := by
  simp only [State.swapLists, if_true]

theorem State.swapLists_false (s : State) (jobs : List Job) : s.swapLists false jobs = (s.returnJobs jobs).swapLine := by
  simp only [State.swapLists, Bool.false_eq_true, if_false]

theorem Keeps.swapLists (h : Keeps r s) (lineFirst : Bool) (jobs : List Job) : Keeps r (s.swapLists lineFirst jobs).1 := by
  cases lineFirst with
  | true =>
    rw [State.swapLists_true]
    exact h.swapLine.returnJobs jobs
  | false =>
    rw [State.swapLists_false]
    exact (h.returnJobs jobs).swapLine

theorem Keeps.clearFigures (h : Keeps r s) : Keeps r s.clearFigures := by
  have notes : Keeps r (s.setController { s.controller with notes := PerProgram.fill Notes.clear }) := h.same rfl
  exact notes.same rfl

theorem Keeps.reportBoundary (h : Keeps r s) (f : Figures) : Keeps r (s.reportBoundary f) := by
  unfold State.reportBoundary
  split
  · exact (Keeps.setReporter (Keeps.setControl h (by rfl)) _ (by rfl) (by rfl)).startReport
  · split
    · exact h.enterIdle
    · exact h

theorem Keeps.beginIntake (h : Keeps r s) : Keeps r s.beginIntake :=
  h.run (RunFrame.refl s).beginIntake fun b => b.beginIntake

theorem Keeps.intakeAtBoundary (h : Keeps r s) : Keeps r s.intakeAtBoundary := by
  unfold State.intakeAtBoundary
  split
  · exact h
  · exact h.beginIntake

/-- R175: the boundary's work up to the exchange of the line's lists, with the figures the line hands over. -/
def State.closedLists (s : State) (lineFirst : Bool) : State × LineFigures :=
  ((s.lateJobs.setRecoder { s.lateJobs.recoder with spare := 0 }).closeInterval.endReservation).swapLists lineFirst
    s.recoder.jobs

/-- R175: the state in which a boundary has closed its interval, before the number moves on. -/
def State.intervalClosed (s : State) (lineFirst : Bool) : State := (s.closedLists lineFirst).1.clearFigures.openInterval

/-- R181: the figures of the interval that a boundary closes. -/
def State.closedFigures (s : State) (lineFirst : Bool) : Figures :=
  (s.closedLists lineFirst).1.gatherFigures (s.closedLists lineFirst).2 s.recoder.spare (s.closedLists lineFirst).1.drainEnds

/-- R175: a boundary closes its interval, moves the number on, and begins the report and the next intake. -/
theorem State.boundary_eq (s : State) (lineFirst : Bool) :
    s.boundary lineFirst =
      (((s.intervalClosed lineFirst).setTimer
        { (s.intervalClosed lineFirst).timer with number := (s.intervalClosed lineFirst).timer.number + 1 }).reportBoundary
          (s.closedFigures lineFirst)).intakeAtBoundary := rfl

theorem Keeps.intervalClosed (h : Keeps r s) (lineFirst : Bool) : Keeps r (s.intervalClosed lineFirst) := by
  have closed := Keeps.closeInterval (h.lateJobs.setRecoder { s.lateJobs.recoder with spare := 0 } fun _ b => b.carried)
  exact Keeps.setAllocator (closed.endReservation.swapLists lineFirst s.recoder.jobs).clearFigures rfl rfl

/-! ### START -/

theorem Keeps.startEnds (h : Keeps r s) (x : CmdResult) : Keeps r (s.startEnds x) := h.setControl rfl

theorem Keeps.startRead (h : Keeps r s) (step : StartStep) (directory : Long) (key : Option Byte) (addr : Long)
    (length : Nat) : Keeps r (s.startRead step directory key addr length) := by
  unfold State.startRead
  split <;> rename_i e
  · exact Keeps.of_issue (h.setControl (by rfl)) e
  · exact (Keeps.of_issue (h.setControl (by rfl)) e).startEnds _

theorem Keeps.startRun (h : Keeps r s) : Keeps r s.startRun := by
  have starting : Keeps r (s.setDevice .starting) := h.setControl rfl
  unfold State.startRun
  dsimp only
  split
  · exact starting.startRead _ _ _ _ _
  · exact starting.startEnds _

theorem Keeps.startReply (h : Keeps r s) (x : Reply) : Keeps r (s.startReply x) := by
  unfold State.startReply
  split
  · exact h.startEnds _
  · unfold State.startSettings
    dsimp only
    split
    · exact Keeps.startRead (h.setControl (by rfl)) _ _ _ _ _
    · exact h.startEnds _
  · unfold State.startRegions
    split
    · exact h.startEnds _
    · exact Keeps.startRead (h.same (by rfl)) _ _ _ _ _
  · unfold State.startCodes
    split
    · exact (h.setRecoder _ (by exact fun _ b => b.carried)).startEnds _
    · exact (h.setRecoder _ (by exact fun _ b => b.carried)).startRead _ _ _ _ _
  · unfold State.startFilters
    split
    · exact h.startEnds _
    · exact (h.setSide _ (by exact id)).startEnds _
  · exact h

theorem Keys.started_sound {k : Keys} (h : k.Sound) : k.started.Sound ∧ k.started.ClearIsClear := by
  have record : ∀ p, k.started.records.look p = ParityRecord.reset := fun p => PerProgram.look_fill _ p
  refine ⟨⟨h.busy, h.installing, fun p q hp => ?_⟩, fun p _ => ?_⟩
  · rw [Keys.isProtected_iff, record] at hp
    cases hp.1
  · rw [record]
    exact ⟨rfl, rfl⟩

/-- R174: START gives every block values that meet its invariant. -/
theorem State.initRun_keepsSound (s : State) : KeepsSound s s.initRun where
  pending := rfl
  keys b := Keys.started_sound b.1
  store b := ⟨rfl, Store.contents_wf b⟩
  debts _ :=
    { owed := fun p => (PerProgram.look_fill 0 p).trans_le (Nat.zero_le _)
      reported := fun x hx => by cases hx
      carried := fun j hj => by cases hj }
  windows _ := State.windowsBounded_of_intake
    (fun p => by
      change ((PerProgram.tabulate _).look p : ProgramCtx).window.count ≤ 4
      rw [PerProgram.look_tabulate]
      exact Nat.zero_le _)
    fun i hi => by cases hi
  side _ := Nat.zero_le _
  queue _ := ⟨⟨fun _ => rfl, fun _ => rfl⟩, List.nodup_nil⟩

theorem Keeps.noticeIfAllOff (h : Keeps r s) : Keeps r s.noticeIfAllOff := by
  unfold State.noticeIfAllOff
  split
  · exact h.setControl rfl
  · exact h

/-! ### The other commands and their ends -/

/-- R172: a CONTROL write keeps what its acceptance keeps. -/
theorem Keeps.command (h : Keeps r s) (c : CommandName) {run : State → State}
    (hrun : ∀ {u : State}, Keeps r u → Keeps r (run u)) : Keeps r (s.command c run) := by
  unfold State.command
  split
  · exact h.setControl rfl
  · split
    · exact hrun (h.setControl (by rfl))
    · exact Keeps.complete (h.setControl (by rfl)) _ _

theorem Keeps.stopRun (h : Keeps r s) : Keeps r s.stopRun := (Keeps.noticeIfAllOff (h.setControl (by rfl))).complete _ _

theorem Keeps.loadFiltersRun (h : Keeps r s) : Keeps r s.loadFiltersRun := by
  have addressed : Keeps r s.filterAddress.2 := by
    unfold State.filterAddress
    split
    · exact h
    · exact h.same rfl
  unfold State.loadFiltersRun
  dsimp only
  split <;> rename_i e
  · exact Keeps.of_issue (addressed.setControl (by rfl)) e
  · exact Keeps.setControl (Keeps.of_issue (addressed.setControl (by rfl)) e) (by rfl)

theorem Keeps.loadFinish (h : Keeps r s) (x : TableRead) : Keeps r (s.loadFinish x) := by
  have ended : Keeps r (s.setControl { s.control with filterLoad := none }) := h.setControl rfl
  unfold State.loadFinish
  dsimp only
  split
  · split
    · exact (ended.setSide _ (by exact id)).complete _ _
    · exact ended.complete _ _
  · exact ended.complete _ _

theorem Keeps.reloadFinish (h : Keeps r s) (x : TableRead) : Keeps r (s.reloadFinish x) := by
  have ended : Keeps r (s.setControl { s.control with regionReload := none }) := h.setControl rfl
  unfold State.reloadFinish
  dsimp only
  split
  · split
    · exact Keeps.complete (ended.same (by rfl)) _ _
    · exact ended.complete _ _
  · exact ended.complete _ _

theorem Keeps.probeRun (h : Keeps r s) : Keeps r s.probeRun := by
  unfold State.probeRun
  split
  · exact h.complete _ _
  · split
    · exact h.complete _ _
    · exact Keeps.issue (h.setControl (by rfl)) _

theorem Keeps.probeAnswer (h : Keeps r s) (d : Long) (data : List Byte) : Keeps r (s.probeAnswer d data) := by
  have writing : Keeps r (s.setControl { s.control with probe := some .writing }) := h.setControl rfl
  unfold State.probeAnswer
  split
  exact writing.issue _

theorem Keeps.probeReply (h : Keeps r s) (x : Reply) : Keeps r (s.probeReply x) := by
  unfold State.probeReply
  split
  · exact h.probeAnswer _ _
  · exact h.setControl rfl
  · exact h.setControl rfl
  · exact h.setControl rfl
  · exact h

theorem Keeps.setTest (h : Keeps r s) (x : Option PageTest) : Keeps r (s.setTest x) := h.same rfl

theorem Keeps.testRecord (h : Keeps r s) (x : PageTest) : Keeps r (s.testRecord x) := by
  unfold State.testRecord
  dsimp only
  split
  · exact (h.setTest _).issue _
  · exact h.setTest _

theorem Keeps.testRun (h : Keeps r s) (first count : Nat) : Keeps r (s.testRun first count) := by
  have testing : Keeps r (s.setDevice .testing) := h.setControl rfl
  unfold State.testRun
  split
  · exact h.complete _ _
  · split
    · exact testing.testRecord _
    · exact testing.setTest _

theorem Keeps.takePage (h : Keeps r s) (x : PageTest) (page : Nat) : Keeps r (s.takePage x page) :=
  h.setStore _ fun wf => ⟨wf.1, CellMemory.wf_clearPages wf.2⟩

theorem Store.verdict_wf {st : Store} (page : Nat) (good : Bool) (h : st.cells.wf = true ∧ st.residue.wf = true) :
    (st.verdict page good).cells.wf = true ∧ (st.verdict page good).residue.wf = true := by
  cases good with
  | true => exact ⟨CellMemory.wf_clearPages h.1, h.2⟩
  | false => exact ⟨CellMemory.wf_clearPages h.1, h.2⟩

theorem Keeps.judgePage (h : Keeps r s) (x : PageTest) (page : Nat) (good : Bool) : Keeps r (s.judgePage x page good) := by
  have judged := h.setStore (s.store.verdict page good) (Store.verdict_wf page good)
  unfold State.judgePage
  dsimp only
  split
  · exact judged.testRecord _
  · exact judged.setTest _

theorem Keeps.testReply (h : Keeps r s) (x : Reply) : Keeps r (s.testReply x) := by
  unfold State.testReply
  split
  · exact h
  · split
    · exact h.setTest _
    · exact h

theorem Keeps.testFinish (h : Keeps r s) (x : PageTest) (result : CmdResult) : Keeps r (s.testFinish x result) := by
  have ended := h.setTest none
  unfold State.testFinish
  dsimp only
  split
  · split
    · exact ended.setControl rfl
    · exact Keeps.raise (ended.setControl (by rfl)) _
  · exact Keeps.complete (ended.setControl (by rfl)) _ _

/-! ### HALT -/

theorem Keeps.interruptTest (h : Keeps r s) : Keeps r s.interruptTest := by
  unfold State.interruptTest
  split
  · exact h
  · split
    · exact h.testRecord _
    · exact h.setTest _
    · exact h

theorem Keeps.haltAllocator (h : Keeps r s) : Keeps r (s.setAllocator s.allocator.halted) :=
  h.onlyAllocator fun _ b => ⟨fun p => (PerProgram.look_fill 0 p).trans_le (Nat.zero_le _), b.reported, b.carried⟩

theorem Keeps.haltQueues (h : Keeps r s) : Keeps r s.haltQueues := h.haltAllocator.haltSide

theorem Keeps.haltCommand (h : Keeps r s) : Keeps r s.haltCommand := Keeps.haltQueues (Keeps.setControl (h.dropAccesses _) (by rfl))

theorem Keeps.haltAdvance (h : Keeps r s) (writesStatus : Bool) (todo : List Program) :
    Keeps r (s.haltAdvance writesStatus todo) :=
  h.runShrinks (RunFrame.haltAdvance _ _ (.refl s)) (Shrinks.haltAdvance _ _ (.refl s))

theorem Keeps.haltController (h : Keeps r s) (writesStatus : Bool) : Keeps r (s.haltController writesStatus) := by
  have todo : Keeps r (s.setController { s.controller with statusTodo := s.controller.statusTodo.take 1 }) := h.same rfl
  unfold State.haltController
  dsimp only
  split
  · exact todo.haltAdvance _ _
  · rename_i i hi
    split
    · exact todo.onlyController (fun b => ⟨b.bounded, fun j hj => by
        cases hj
        exact b.roomToTake i hi⟩)
    · exact Keeps.haltAdvance (todo.endIntake (by rfl) (by rfl)) _ _

theorem Keeps.haltDevice (h : Keeps r s) : Keeps r s.haltDevice := by
  have ended := (Keeps.setTimer (Keeps.setControl (h.dropAccesses Agent.endsAtHalt) (c :=
    { s.control with
      device := .halting, inFlight := some .halt, ignored := false, start := none, filterLoad := none, regionReload := none
      probe := none, notice := false, drainEnding := false, endedTest := none }) rfl) (x :=
    { s.timer with running := false }) rfl).haltAllocator.haltRecoder.haltSide.stopLine.interruptTest
  exact (ended.setReporter _ (by rfl) (by rfl)).haltController _

theorem Keeps.haltFinish (h : Keeps r s) : Keeps r s.haltFinish := by
  have halted : Keeps r (s.setController { s.controller with halt := none }) := h.same rfl
  unfold State.haltFinish
  dsimp only
  split <;> exact Keeps.complete (halted.setControl (by rfl)) _ _

/-! ### The end of an access -/

theorem Keeps.deliver (h : Keeps r s) (agent : Agent) (x : Reply) : Keeps r (s.deliver agent x) := by
  have run := RunFrame.refl s
  have shrinks := Shrinks.refl s
  cases agent with
  | start => exact h.startReply x
  | filterLoad => exact h.same rfl
  | regionReload => exact h.same rfl
  | probe => exact h.probeReply x
  | pageTest => exact h.testReply x
  | intake => exact h.run (run.intakeReply x) fun b => b.intakeReply x
  | halt => exact h.runShrinks (run.haltReply x) (shrinks.haltReply x)
  | status => exact h.runShrinks (run.statusReply x) (shrinks.statusReply x)
  | finish p => exact h.run (run.finishReply p x) fun b => b.finishReply p x
  | engine e => exact h.engineReply e x
  | side => exact h.sideReply x
  | report => exact h.reportReply x
  | faultRecord => exact h.faultReply x

theorem Keeps.endAccess (h : Keeps r s) (tag : Nat) (reply : Access → Reply) : Keeps r (s.endAccess tag reply) := by
  unfold State.endAccess
  split
  · exact h
  · exact Keeps.deliver (s := s.removeAccess tag) (h.same rfl) _ _

theorem Keeps.takeReportOf (h : Keeps r s) (p : Program) (q : Report → Bool) : Keeps r (s.takeReportOf p q) := by
  obtain ⟨rest, frame⟩ := s.takeReportOf_frame p q
  have taken : Keeps r (s.setController { s.controller with reports := rest }) := h.same rfl
  exact taken.run frame fun b => State.WindowsBounded.takeReportOf (s := s) ⟨b.bounded, b.roomToTake⟩ p q

end Sys2Proof.Machine

/-! PROOFS. The invariants over the commands (O2, O5 to O10, O12 to O14): only the commands the manual names change DIRECTORY,
the interval number or a key slot, and every command keeps the invariants. -/

namespace Sys2Proof.Machine

variable {s t : State}

/-! ### The key window -/

/-- The soundness of the key unit speaks of KEY_BUSY, the install, the slots and the records alone. -/
theorem Keys.sound_of_parts {k k' : Keys} (h : k.Sound ∧ k.ClearIsClear)
    (parts : (k'.busy, k'.install, k'.slots, k'.records) = (k.busy, k.install, k.slots, k.records)) :
    k'.Sound ∧ k'.ClearIsClear := by
  simp only [Prod.mk.injEq] at parts
  obtain ⟨busy, install, slots, records⟩ := parts
  have hslot : ∀ p q, k'.slot p q = k.slot p q := fun p q => by rw [Keys.slot, Keys.slot, slots]
  have hprotected : ∀ p q, k'.isProtected p q = k.isProtected p q := fun p q => by
    rw [Keys.isProtected, Keys.isProtected, records]
  refine ⟨⟨by rw [busy, install]; exact h.1.busy, fun p q => ?_, fun p q => ?_⟩, fun p => ?_⟩
  · rw [hslot, install]
    exact h.1.installing p q
  · rw [hslot, hprotected]
    exact h.1.active p q
  · rw [records]
    exact h.2 p

theorem Keys.select_sound {k : Keys} (h : k.Sound ∧ k.ClearIsClear) (p : Program) (q : Parity) (op : KeyOperation)
    (result : KeyResult) : (k.select p q op result).Sound ∧ (k.select p q op result).ClearIsClear := by
  unfold Keys.select
  split <;> exact Keys.sound_of_parts h rfl

/-- With no install in flight and no slot INSTALLING every record is sound. -/
theorem Keys.sound_of_not_busy {k : Keys} (busy : k.busy = false) (install : k.install = none)
    (slots : ∀ p q, k.slot p q ≠ .installing) : k.Sound where
  busy := by rw [busy, install]; rfl
  installing p q := ⟨fun h => absurd h (slots p q), fun ⟨_, h, _⟩ => by simp [install] at h⟩
  active p q _ := slots p q

theorem Keys.Sound.install_none {k : Keys} (h : k.Sound) (busy : k.busy = false) : k.install = none := by
  have := h.busy
  simpa [busy] using this

theorem Keys.eraseSlot_sound {k : Keys} (h : k.Sound ∧ k.ClearIsClear) (p : Program) (q : Parity) :
    (k.eraseSlot p q).Sound ∧ (k.eraseSlot p q).ClearIsClear := by
  cases busy : k.busy with
  | true =>
    rw [Keys.eraseSlot, busy, if_pos rfl]
    exact Keys.select_sound h ..
  | false =>
    cases hprotected : k.isProtected p q with
    | true =>
      rw [Keys.eraseSlot_protected busy hprotected]
      exact Keys.select_sound h ..
    | false =>
      rw [Keys.eraseSlot_unprotected busy hprotected, Keys.select_accepted busy]
      refine ⟨Keys.sound_of_not_busy busy (h.1.install_none busy) fun p' q' => ?_, h.2⟩
      by_cases same : (p', q') = (p, q)
      · obtain ⟨rfl, rfl⟩ := Prod.mk.inj same
        rw [Keys.slot_setSlot_same]
        exact KeySlot.noConfusion
      · rw [Keys.slot_setSlot_ne _ same]
        exact h.1.slot_ne_installing busy p' q'

/-- R98: the slot that an accepted second half writes is INSTALLING, and is no protected slot. -/
theorem Keys.data_sound {k : Keys} (h : k.Sound ∧ k.ClearIsClear) (half : Word) :
    (k.data half).Sound ∧ (k.data half).ClearIsClear := by
  unfold Keys.data
  split
  · exact Keys.sound_of_parts h rfl
  · rename_i accepted
    split
    · exact Keys.sound_of_parts h rfl
    · split
      · exact Keys.sound_of_parts h rfl
      · rename_i unprotected
        have busy : k.busy = false := by simp_all
        have slot : ∀ p q, (p, q) ≠ (k.selProgram, k.selParity) →
            (k.setSlot k.selProgram k.selParity .installing).slot p q = k.slot p q :=
          fun p q ne => Keys.slot_setSlot_ne k ne _
        refine ⟨⟨rfl, fun p q => ⟨fun hslot => ?written, ?named⟩, fun p q hp => ?active⟩, h.2⟩
        case written =>
          by_cases same : (p, q) = (k.selProgram, k.selParity)
          · obtain ⟨rfl, rfl⟩ := Prod.mk.inj same
            exact ⟨_, rfl, rfl, rfl⟩
          · exact absurd ((slot p q same).symm.trans hslot) (h.1.slot_ne_installing busy p q)
        case named =>
          rintro ⟨i, hi, rfl, rfl⟩
          cases hi
          exact Keys.slot_setSlot_same k k.selProgram k.selParity .installing
        case active =>
          by_cases same : (p, q) = (k.selProgram, k.selParity)
          · obtain ⟨rfl, rfl⟩ := Prod.mk.inj same
            exact absurd hp unprotected
          · exact fun hslot => h.1.slot_ne_installing busy p q ((slot p q same).symm.trans hslot)

theorem Keys.installed_sound {k : Keys} (h : k.Sound ∧ k.ClearIsClear) {i : Install} (hi : k.install = some i) :
    (k.installed i).Sound ∧ (k.installed i).ClearIsClear := by
  refine ⟨Keys.sound_of_not_busy rfl rfl fun p q => ?_, h.2⟩
  change (k.setSlot i.program i.parity (.loaded i.word)).slot p q ≠ _
  by_cases same : (p, q) = (i.program, i.parity)
  · obtain ⟨rfl, rfl⟩ := Prod.mk.inj same
    rw [Keys.slot_setSlot_same]
    exact KeySlot.noConfusion
  · rw [Keys.slot_setSlot_ne k same]
    intro hslot
    obtain ⟨j, hj, rfl, rfl⟩ := (h.1.installing p q).mp hslot
    rw [hi] at hj
    cases hj
    exact same rfl

theorem Keys.startCapture_sound {k : Keys} (h : k.Sound ∧ k.ClearIsClear) :
    k.startCapture.Sound ∧ k.startCapture.ClearIsClear := by
  unfold Keys.startCapture
  split
  · exact h
  · exact Keys.sound_of_parts h rfl

theorem Keys.slot_reset (p : Program) (q : Parity) : Keys.reset.slot p q = .empty := by
  rw [Keys.slot, show Keys.reset.slots.look p = _ from PerProgram.look_fill _ p]
  cases q <;> rfl

theorem Keys.reset_sound : Keys.reset.Sound ∧ Keys.reset.ClearIsClear := by
  refine ⟨Keys.sound_of_not_busy rfl rfl fun p q => ?_, fun p _ => ?_⟩
  · rw [Keys.slot_reset]
    exact KeySlot.noConfusion
  · rw [show Keys.reset.records.look p = ParityRecord.reset from PerProgram.look_fill _ p]
    exact ⟨rfl, rfl⟩

/-- Work of the key window from s to t. -/
theorem KeepsSound.setKeys {x : Keys} (sound : s.keys.Sound ∧ s.keys.ClearIsClear → x.Sound ∧ x.ClearIsClear) :
    KeepsSound s (s.setKeys x) :=
  ⟨rfl, sound, id, fun b => ⟨b.owed, b.reported, b.carried⟩, fun b => ⟨b.bounded, b.roomToTake⟩, id
    , fun b => ⟨b.head, b.waiting⟩⟩

theorem Keeps.setKeys {x : Keys} (slots : x.slots = s.keys.slots)
    (sound : s.keys.Sound ∧ s.keys.ClearIsClear → x.Sound ∧ x.ClearIsClear) : Keeps s (s.setKeys x) :=
  ⟨.setKeys sound, rfl, rfl, slots⟩

@[simp] theorem Keys.select_slots (k : Keys) (p : Program) (q : Parity) (op : KeyOperation) (result : KeyResult) :
    (k.select p q op result).slots = k.slots := by
  unfold Keys.select
  split <;> rfl

theorem Keeps.select (s : State) (p : Program) (q : Parity) (op : KeyOperation) (result : KeyResult) :
    Keeps s (s.setKeys (s.keys.select p q op result)) :=
  .setKeys (Keys.select_slots ..) fun h => Keys.select_sound h ..

/-! ### Resets -/

/-- R179: a reset gives every block values that meet its invariant. -/
theorem State.afterReset_keepsSound (s : State) (c : Control) (store : Store)
    (wf : s.StoreSound → store.cells.wf = true ∧ store.residue.wf = true) : KeepsSound s (s.afterReset c store) where
  pending := rfl
  keys _ := Keys.reset_sound
  store := wf
  debts _ :=
    { owed := fun p => (PerProgram.look_fill 0 p).trans_le (Nat.zero_le _)
      reported := fun x hx => by cases hx
      carried := fun j hj => by cases hj }
  windows _ := State.windowsBounded_of_intake
    (fun p => by
      change ((PerProgram.tabulate _).look p : ProgramCtx).window.count ≤ 4
      rw [PerProgram.look_tabulate]
      exact Nat.zero_le _)
    fun i hi => by cases hi
  side _ := Nat.zero_le _
  queue _ := ⟨⟨fun _ => rfl, fun _ => rfl⟩, List.nodup_nil⟩

/-! ### One command -/

/-- What a command keeps: the waiting commands and the invariants always, DIRECTORY, the interval number and the key slots
unless it is a command that the manual names for them. -/
structure CommandKeeps (c : Instr) (s t : State) : Prop extends KeepsSound s t where
  directory : t.control.directory ≠ s.control.directory →
    (∃ v, c = .registerWrite .directoryLow v) ∨ (∃ v, c = .registerWrite .directoryHigh v) ∨ c = .powerOnReset ∨
      c = .busFunctionReset
  number : t.timer.number ≠ s.timer.number →
    (∃ b, c = .boundary b) ∨ c = .startComplete ∨ c = .reset ∨ c = .powerOnReset ∨ c = .busFunctionReset
  slots : t.keys.slots ≠ s.keys.slots →
    (∃ h, c = .keyData h) ∨ c = .installEnd ∨ (∃ p q, c = .erase p q) ∨ c = .reset ∨ c = .powerOnReset ∨
      c = .busFunctionReset

theorem Keeps.commandKeeps (h : Keeps s t) (c : Instr) : CommandKeeps c s t :=
  ⟨h.toKeepsSound, fun d => absurd h.directory d, fun d => absurd h.number d, fun d => absurd h.slots d⟩

/-- Where an outcome is a next state, that state keeps what a command keeps. -/
def NextKeeps (c : Instr) (s : State) (o : Host.Outcome State Fault Refusal) : Prop := ∀ t, o = .next t → CommandKeeps c s t

theorem CommandKeeps.next {c : Instr} (h : CommandKeeps c s t) : NextKeeps c s (.next t) := by
  rintro _ ⟨⟩
  exact h

theorem Keeps.next {c : Instr} (h : Keeps s t) : NextKeeps c s (.next t) := (h.commandKeeps c).next

variable {c : Instr}

/-! ### The control unit's commands -/

/-- R174: the first intake of a run begins behind START's completion. -/
theorem State.firstIntake_keeps (s : State) :
    Keeps s ((s.setDevice .running).complete (some .start) .ok).beginIntake :=
  (Keeps.complete (Keeps.setControl (.refl s) (by rfl)) _ _).beginIntake

theorem execStartComplete_keeps (s : State) : NextKeeps .startComplete s (execStartComplete s) := by
  unfold execStartComplete
  split
  · have ended : Keeps s (s.setControl { s.control with start := none, notice := false, drainEnding := false }) :=
      (Keeps.refl s).setControl rfl
    unfold State.startFinish
    dsimp only
    split
    · have run := State.initRun_keepsSound
        (s.setControl { s.control with start := none, notice := false, drainEnding := false })
      have begun := State.firstIntake_keeps
        (s.setControl { s.control with start := none, notice := false, drainEnding := false }).initRun
      exact CommandKeeps.next ⟨(ended.toKeepsSound.trans run).trans begun.toKeepsSound
        , fun d => absurd begun.directory d, fun _ => .inr (.inl rfl), fun d => absurd begun.slots d⟩
    · exact (Keeps.complete (ended.setControl (by rfl)) _ _).next
  · exact (Keeps.refl s).next

theorem execHalt_keeps (s : State) : NextKeeps .halt s (execHalt s) := by
  have h := Keeps.refl s
  unfold execHalt
  split
  · exact Keeps.next (h.setControl (by rfl))
  · split
    · exact (Keeps.complete (h.haltCommand.setControl (by rfl)) _ _).next
    · exact (Keeps.complete (h.haltQueues.setControl (by rfl)) _ _).next
  · exact h.haltDevice.next

theorem execHaltComplete_keeps (s : State) : NextKeeps .haltComplete s (execHaltComplete s) := by
  unfold execHaltComplete
  split
  · exact (Keeps.refl s).haltFinish.next
  · exact (Keeps.refl s).next

theorem execLoadEnd_keeps (s : State) : NextKeeps .loadEnd s (execLoadEnd s) := by
  unfold execLoadEnd
  split
  · exact ((Keeps.refl s).loadFinish _).next
  · exact ((Keeps.refl s).loadFinish _).next
  · exact (Keeps.refl s).next

theorem execReloadEnd_keeps (s : State) : NextKeeps .reloadEnd s (execReloadEnd s) := by
  unfold execReloadEnd
  split
  · exact ((Keeps.refl s).reloadFinish _).next
  · exact ((Keeps.refl s).reloadFinish _).next
  · exact (Keeps.refl s).next

theorem execPageTested_keeps (s : State) (event : PageStep) : NextKeeps (.pageTested event) s (execPageTested event s) := by
  have h := Keeps.refl s
  unfold execPageTested
  split
  · exact h.next
  · split
    · exact (h.takePage _ _).next
    · exact ((h.takePage _ _).judgePage _ _ _).next
    · exact (h.judgePage _ _ _).next
    · exact h.next

theorem execTestEnd_keeps (s : State) : NextKeeps .testEnd s (execTestEnd s) := by
  unfold execTestEnd
  split
  · exact (Keeps.refl s).next
  · split
    · exact ((Keeps.refl s).testFinish _ _).next
    · exact (Keeps.refl s).next

theorem execProbeEnd_keeps (s : State) : NextKeeps .probeEnd s (execProbeEnd s) := by
  unfold execProbeEnd
  split
  · exact (Keeps.complete ((Keeps.refl s).setControl (by rfl)) _ _).next
  · exact (Keeps.refl s).next

theorem execBadCommand_keeps (s : State) (code : Byte) : NextKeeps (.badCommand code) s (execBadCommand code s) := by
  unfold execBadCommand
  split
  · exact Keeps.next ((Keeps.refl s).setControl (by rfl))
  · exact (Keeps.complete ((Keeps.refl s).setControl (by rfl)) _ _).next

theorem execReset_keeps (s : State) : NextKeeps .reset s (execReset s) :=
  CommandKeeps.next
    { toKeepsSound := (s.afterReset_keepsSound s.control.afterReset (s.store.rebuilt s.retiredAfterReset)
        fun b => ⟨rfl, Store.contents_wf b⟩).trans ((Keeps.refl _).raise .commandDone).toKeepsSound
      directory := fun d => absurd rfl d
      number := fun _ => .inr (.inr (.inl rfl))
      slots := fun _ => .inr (.inr (.inr (.inl rfl))) }

theorem State.afterReset_keeps (s : State) (hc : c = .powerOnReset ∨ c = .busFunctionReset) :
    NextKeeps c s (.next (s.afterReset Control.reset Store.reset)) :=
  CommandKeeps.next
    { toKeepsSound := s.afterReset_keepsSound Control.reset Store.reset fun _ => ⟨rfl, rfl⟩
      directory := fun _ => .inr (.inr hc)
      number := fun _ => .inr (.inr (.inr hc))
      slots := fun _ => .inr (.inr (.inr (.inr hc))) }

/-! ### The key window's and the registers' commands -/

theorem execInstallEnd_keeps (s : State) : NextKeeps .installEnd s (execInstallEnd s) := by
  unfold execInstallEnd
  split
  · exact (Keeps.refl s).next
  · rename_i i hi
    have sound : KeepsSound s (s.setKeys (s.keys.installed i)) := .setKeys fun h => Keys.installed_sound h hi
    exact CommandKeeps.next ⟨sound.trans ((Keeps.refl _).raise .keyDone).toKeepsSound, fun d => absurd rfl d
      , fun d => absurd rfl d, fun _ => .inr (.inl rfl)⟩

@[simp] theorem Keys.startCapture_slots (k : Keys) : k.startCapture.slots = k.slots := by
  unfold Keys.startCapture
  split <;> rfl

/-- R101, for any word read: on the holding's own word a `rfl` has the kernel compute, as at `exec_keyCheck`. -/
theorem Keeps.keyCheckRead (s : State) (word : Word) :
    Keeps s { s with control := { s.control with readData := word }, keys := s.keys.startCapture } :=
  ((Keeps.refl s).setControl (c := { s.control with readData := word }) rfl).trans
    (Keeps.setKeys (Keys.startCapture_slots s.keys) fun h => Keys.startCapture_sound h)

theorem exec_keyCheck_keeps (s : State) : NextKeeps .keyCheck s (exec .keyCheck s) := by
  intro t e
  rw [exec_keyCheck] at e
  cases e
  exact (Keeps.keyCheckRead s _).commandKeeps _

theorem execCaptureEnd_keeps (s : State) : NextKeeps .captureEnd s (execCaptureEnd s) := by
  unfold execCaptureEnd
  split
  · exact (Keeps.refl s).next
  · exact Keeps.next (Keeps.setKeys (by rfl) (by exact fun h => Keys.sound_of_parts h rfl))

theorem execErase_keeps (s : State) (p : Program) (q : Parity) : NextKeeps (.erase p q) s (execErase p q s) :=
  CommandKeeps.next ⟨.setKeys fun h => Keys.eraseSlot_sound h p q, fun d => absurd rfl d, fun d => absurd rfl d
    , fun _ => .inr (.inr (.inl ⟨p, q, rfl⟩))⟩

theorem execKeyData_keeps (s : State) (half : Word) : NextKeeps (.keyData half) s (execKeyData half s) :=
  CommandKeeps.next ⟨.setKeys fun h => Keys.data_sound h half, fun d => absurd rfl d, fun d => absurd rfl d
    , fun _ => .inl ⟨half, rfl⟩⟩

/-- A change of the control unit's registers, DIRECTORY among them. -/
theorem KeepsSound.setControl (s : State) (x : Control) : KeepsSound s (s.setControl x) :=
  ⟨rfl, id, id, fun b => ⟨b.owed, b.reported, b.carried⟩, fun b => ⟨b.bounded, b.roomToTake⟩, id
    , fun b => ⟨b.head, b.waiting⟩⟩

theorem execRegisterWrite_keeps (s : State) (register : PlainRegister) (value : Word) :
    NextKeeps (.registerWrite register value) s (execRegisterWrite register value s) := by
  cases register with
  | status => exact (Keeps.refl s).next
  | directoryLow =>
    exact CommandKeeps.next ⟨.setControl s _, fun _ => .inl ⟨value, rfl⟩, fun d => absurd rfl d, fun d => absurd rfl d⟩
  | directoryHigh =>
    exact CommandKeeps.next ⟨.setControl s _, fun _ => .inr (.inl ⟨value, rfl⟩), fun d => absurd rfl d
      , fun d => absurd rfl d⟩
  | keyCheck => exact (Keeps.refl s).next

/-! ### The round's commands -/

theorem execBoundary_keeps (s : State) (event : BoundaryEvent) : NextKeeps (.boundary event) s (execBoundary event s) := by
  unfold execBoundary
  split
  · have before : Keeps s (if event.allocationFirst then s.completeAtBoundary else s) := by
      split
      · exact (Keeps.refl s).completeAtBoundary
      · exact .refl s
    generalize (if event.allocationFirst then s.completeAtBoundary else s) = u at before ⊢
    have closed := before.intervalClosed event.lineFirst
    have opened := ((Keeps.refl ((u.intervalClosed event.lineFirst).setTimer { (u.intervalClosed event.lineFirst).timer with
      number := (u.intervalClosed event.lineFirst).timer.number + 1 })).reportBoundary
        (u.closedFigures event.lineFirst)).intakeAtBoundary
    have number_alone : KeepsSound (u.intervalClosed event.lineFirst) ((u.intervalClosed event.lineFirst).setTimer
        { (u.intervalClosed event.lineFirst).timer with number := (u.intervalClosed event.lineFirst).timer.number + 1 }) :=
      ⟨rfl, id, id, fun b => ⟨b.owed, b.reported, b.carried⟩, fun b => ⟨b.bounded, b.roomToTake⟩, id
        , fun b => ⟨b.head, b.waiting⟩⟩
    rw [State.boundary_eq]
    exact CommandKeeps.next ⟨(closed.toKeepsSound.trans number_alone).trans opened.toKeepsSound
      , fun d => absurd (opened.directory.trans closed.directory) d, fun _ => .inl ⟨event, rfl⟩
      , fun d => absurd (opened.slots.trans closed.slots) d⟩
  · exact (Keeps.refl s).next

theorem execIntakeComplete_keeps (s : State) : NextKeeps .intakeComplete s (execIntakeComplete s) := by
  have merged : Keeps s s.mergeIntakeNotes := (Keeps.refl s).endIntake rfl rfl
  unfold execIntakeComplete
  split
  · exact (Keeps.refl s).next
  · split
    · dsimp only
      split
      · exact Keeps.next (merged.setAllocator (by rfl) (by rfl))
      · exact merged.intakeAtBoundary.next
    · exact (Keeps.refl s).next

theorem execAllocationComplete_keeps (s : State) : NextKeeps .allocationComplete s (execAllocationComplete s) := by
  unfold execAllocationComplete
  split
  · exact (Keeps.refl s).next
  · exact ((Keeps.refl s).applyAllocation _).startRoundStatus.startRoundWork.next

/-- The report taken and those that stay are among those on their way. -/
theorem takeCompletion_mem {p : Program} {l rest : List CompletionReport} {x : CompletionReport}
    (h : takeCompletion p l = some (x, rest)) : x ∈ l ∧ ∀ y ∈ rest, y ∈ l := by
  induction l generalizing rest with
  | nil => cases h
  | cons y l ih =>
    rw [takeCompletion] at h
    split at h
    · cases h
      exact ⟨List.mem_cons_self, fun z hz => List.mem_cons_of_mem _ hz⟩
    · split at h
      · cases h
      · rename_i z rest' taken
        cases h
        obtain ⟨hx, hrest⟩ := ih taken
        exact ⟨List.mem_cons_of_mem _ hx, fun z hz => (List.mem_cons.mp hz).elim (fun e => e ▸ List.mem_cons_self)
          fun hz => List.mem_cons_of_mem _ (hrest z hz)⟩

theorem execCompletionReport_keeps (s : State) (p : Program) :
    NextKeeps (.completionReport p) s (execCompletionReport p s) := by
  unfold execCompletionReport
  split
  · exact (Keeps.refl s).next
  · rename_i x rest taken
    obtain ⟨hx, hrest⟩ := takeCompletion_mem taken
    have dropped := (Keeps.refl s).dropReports rest hrest
    dsimp only
    split
    · exact (dropped.takeCompletionReport fun b => b.reported x hx).next
    · exact dropped.next

/-! ### The recoder's commands -/

theorem execPassEnd_keeps (s : State) (e : Engine) : NextKeeps (.passEnd e) s (execPassEnd e s) := by
  have h := Keeps.refl s
  unfold execPassEnd
  split
  · rename_i phase
    have owes : s.DebtsBounded → _ := fun b => b.held (e := e) (by rw [phase]; rfl)
    split
    · exact h.next
    · split
      · exact (h.startBuild owes e _).next
      · split
        · exact (h.startPass2 owes e _).next
        · split
          · exact (h.endsHeld e _ _).next
          · exact (h.startFloor owes e _).next
  · exact h.next

/-- R82: an accepted offer owes at most 8 cells. -/
theorem floorOffer_debt_le {budget room spare size draw debt : Nat}
    (h : floorOffer budget room spare size = .ok (draw, debt)) : debt ≤ Config.debtLimit := by
  unfold floorOffer at h
  split at h
  · cases h
  · dsimp only at h
    split at h
    · cases h
      assumption
    · cases h

theorem execFloorPassEnd_keeps (s : State) (e : Engine) : NextKeeps (.floorPassEnd e) s (execFloorPassEnd e s) := by
  have h := Keeps.refl s
  unfold execFloorPassEnd
  split
  · split
    · split
      · exact (h.endsHeld e _ _).next
      · exact (h.endsHeld e _ _).next
      · split
        · exact (h.endsHeld e _ _).next
        · rename_i offer
          exact ((h.setRecoder _ (by exact fun _ b => b.carried)).startBuild (fun _ => floorOffer_debt_le offer) e _).next
    · exact h.next
  · exact h.next

theorem execJobCompletion_keeps (s : State) (e : Engine) : NextKeeps (.jobCompletion e) s (execJobCompletion e s) := by
  unfold execJobCompletion
  split
  · rename_i phase
    exact (((Keeps.refl s).completeJob (fun b => b.held (e := e) (by rw [phase]; rfl)) e _).engineTakes e).next
  · exact (Keeps.refl s).next

/-! ### The line's, the side path's and the report unit's commands -/

theorem execSideLink_keeps (s : State) : NextKeeps .sideLink s (execSideLink s) := by
  unfold execSideLink
  split
  · split
    · exact ((Keeps.refl s).linkSideBuild _ _).nextSideBuild.next
    · exact (Keeps.refl s).next
  · exact (Keeps.refl s).next

theorem Keeps.setLine {r : State} (h : Keeps r s) (x : Line) : Keeps r (s.setLine x) := h.same rfl

theorem Keeps.sendEntry {r : State} (h : Keeps r s) (check : ReadCheck) (entry : Entry) :
    NextKeeps c r (s.sendEntry check entry) := by
  cases entry with
  | produced p count sequence => exact (h.setLine _).next
  | stored page place =>
    unfold State.sendEntry
    dsimp only
    split
    · rintro t ⟨⟩
    · cases check with
      | clean => exact (h.setLine _).next
      | corrected => exact Keeps.next ((h.setLine _).setStore _ (by exact id))
      | uncorrectable => exact (((h.setStore _ (by exact id)).raise _).setLine _).next

theorem execCellRequest_keeps (s : State) (check : ReadCheck) : NextKeeps (.cellRequest check) s (execCellRequest check s) := by
  have h := Keeps.refl s
  unfold execCellRequest
  dsimp only
  split
  · split
    · split
      · exact ((h.setLine _).setLine _).next
      · split
        · exact (((h.setLine _).setLine _).setLine _).next
        · exact ((h.setLine _).setLine _).sendEntry _ _
    · exact ((h.setLine _).setLine _).next
  · exact (h.setLine _).next

theorem execFaultRecordWriteEnd_keeps (s : State) : NextKeeps .faultRecordWriteEnd s (execFaultRecordWriteEnd s) := by
  unfold execFaultRecordWriteEnd
  split
  · rename_i written req rest _ hq
    cases written with
    | true =>
      refine Keeps.next (Keeps.nextFaultWrite hq ?_ rfl)
      exact (Keeps.refl s).raise .programHeld
    | false =>
      refine Keeps.next (Keeps.nextFaultWrite hq ?_ rfl)
      exact ((Keeps.refl s).raise .programHeld).note req.program _
  · exact (Keeps.refl s).next

/-! ### Every command -/

theorem exec_keeps (c : Instr) (s : State) : NextKeeps c s (exec c s) := by
  have h := Keeps.refl s
  cases c with
  | start => exact (h.command .start Keeps.startRun).next
  | startComplete => exact execStartComplete_keeps s
  | stop => exact (h.command .stop Keeps.stopRun).next
  | halt => exact execHalt_keeps s
  | haltComplete => exact execHaltComplete_keeps s
  | loadFilters => exact (h.command .loadFilters Keeps.loadFiltersRun).next
  | loadEnd => exact execLoadEnd_keeps s
  | reloadRegions => exact (h.command .reloadRegions fun hu => Keeps.issue (hu.setControl (by rfl)) _).next
  | reloadEnd => exact execReloadEnd_keeps s
  | testPages first count => exact (h.command .testPages fun hu => hu.testRun _ _).next
  | pageTested event => exact execPageTested_keeps s event
  | testEnd => exact execTestEnd_keeps s
  | probe => exact (h.command .probe Keeps.probeRun).next
  | probeEnd => exact execProbeEnd_keeps s
  | reset => exact execReset_keeps s
  | badCommand code => exact execBadCommand_keeps s code
  | powerOnReset => exact s.afterReset_keeps (.inl rfl)
  | busFunctionReset => exact s.afterReset_keeps (.inr rfl)
  | keySelectNone p q => exact (Keeps.select s p q _ _).next
  | load p q => exact (Keeps.select s p q _ _).next
  | erase p q => exact execErase_keeps s p q
  | badOperation p q code => exact (Keeps.select s p q _ _).next
  | keyData half => exact execKeyData_keeps s half
  | installEnd => exact execInstallEnd_keeps s
  | keyCheck => exact exec_keyCheck_keeps s
  | captureEnd => exact execCaptureEnd_keeps s
  | events value => exact Keeps.next (h.setControl (by rfl))
  | eventEnable value => exact Keeps.next (h.setControl (by rfl))
  | registerWrite register value => exact execRegisterWrite_keeps s register value
  | boundary event => exact execBoundary_keeps s event
  | intakeComplete => exact execIntakeComplete_keeps s
  | allocationComplete => exact execAllocationComplete_keeps s
  | passEnd e => exact execPassEnd_keeps s e
  | floorPassEnd e => exact execFloorPassEnd_keeps s e
  | jobCompletion e => exact execJobCompletion_keeps s e
  | finishReport p => exact (h.takeReportOf p _).next
  | faultReport p => exact (h.takeReportOf p _).next
  | completionReport p => exact execCompletionReport_keeps s p
  | sideLink => exact execSideLink_keeps s
  | cellRequest check => exact execCellRequest_keeps s check
  | faultRecordWriteEnd => exact execFaultRecordWriteEnd_keeps s
  | accessCompletion tag data => exact (h.endAccess tag _).next
  | busError tag => exact (h.endAccess tag _).next
  | completionTimeout tag => exact (h.endAccess tag _).next

/-- A step runs the command at the front of the queue on the rest of it, or idles (log 4). -/
theorem step_next {s t : State} (h : step s = .next t) :
    t = s ∨ ∃ c rest, s.pending = c :: rest ∧ exec c (s.setPending rest) = .next t := by
  unfold step at h
  split at h
  · cases h
    exact .inl rfl
  · rename_i c rest hp
    exact .inr ⟨c, rest, hp, h⟩

/-- An invariant that does not speak of the queue is kept by a step where each command keeps it. -/
theorem step_keeps {P : State → Prop} (hpending : ∀ s rest, P s → P (s.setPending rest))
    (hexec : ∀ c s t, CommandKeeps c s t → P s → P t) {s t : State} (hs : P s) (h : step s = .next t) : P t := by
  obtain rfl | ⟨c, rest, -, he⟩ := step_next h
  · exact hs
  · exact hexec c _ t (exec_keeps c _ t he) (hpending s rest hs)

/-- Settles O2: a projection of what every command keeps. -/
theorem execLeavesTheQueue : Obligations.ExecLeavesTheQueue :=
  fun c s t h => (exec_keeps c s t h).pending

/-- Settles O5. -/
theorem stepKeepsTheStoreSound : Obligations.StepKeepsTheStoreSound :=
  fun _ _ hs h => step_keeps (P := State.StoreSound) (fun _ _ b => b) (fun _ _ _ k => k.store) hs h

/-- Settles O6. -/
theorem stepKeepsTheKeysSound : Obligations.StepKeepsTheKeysSound :=
  fun _ _ hs h => step_keeps (P := State.KeysSound) (fun _ _ b => b) (fun _ _ _ k => k.keys) hs h

/-- Settles O7. -/
theorem stepKeepsTheDebtsBounded : Obligations.StepKeepsTheDebtsBounded :=
  fun _ _ hs h => step_keeps (P := State.DebtsBounded) (fun _ _ b => ⟨b.owed, b.reported, b.carried⟩)
    (fun _ _ _ k => k.debts) hs h

/-- Settles O8. -/
theorem stepKeepsTheWindowsBounded : Obligations.StepKeepsTheWindowsBounded :=
  fun _ _ hs h => step_keeps (P := State.WindowsBounded) (fun _ _ b => ⟨b.bounded, b.roomToTake⟩)
    (fun _ _ _ k => k.windows) hs h

/-- Settles O9. -/
theorem stepKeepsTheSideBounded : Obligations.StepKeepsTheSideBounded :=
  fun _ _ hs h => step_keeps (P := State.SideBounded) (fun _ _ b => b) (fun _ _ _ k => k.side) hs h

/-- Settles O10. -/
theorem stepKeepsTheFaultQueueSound : Obligations.StepKeepsTheFaultQueueSound :=
  fun _ _ hs h => step_keeps (P := State.FaultQueueSound) (fun _ _ b => ⟨b.head, b.waiting⟩) (fun _ _ _ k => k.queue) hs h

/-- Settles O12. -/
theorem directoryChangesOnlyAtItsWrites : Obligations.DirectoryChangesOnlyAtItsWrites :=
  fun c s t h => (exec_keeps c s t h).directory

/-- Settles O13. -/
theorem intervalNumberChangesOnlyAtBoundaries : Obligations.IntervalNumberChangesOnlyAtBoundaries :=
  fun c s t h => (exec_keeps c s t h).number

/-- Settles O14. -/
theorem keySlotsChangeOnlyThroughTheWindow : Obligations.KeySlotsChangeOnlyThroughTheWindow :=
  fun c s t h => (exec_keeps c s t h).slots

end Sys2Proof.Machine

/-! PROOFS. The key window and the registers (O1, O16, O18, O19, O21, O23, O25, O28). -/

namespace Sys2Proof.Machine

/-- Settles O1. -/
theorem stepRunsTheFrontCommand : Obligations.StepRunsTheFrontCommand := by
  refine ⟨fun c rest s => rfl, fun s h => ?_⟩
  rw [step, h]

/-! ### The key window -/

theorem exec_keySelectNone (p : Program) (q : Parity) (s : State) :
    exec (.keySelectNone p q) s = .next (s.setKeys (s.keys.select p q .none .none)) := rfl

theorem exec_load (p : Program) (q : Parity) (s : State) :
    exec (.load p q) s = .next (s.setKeys (s.keys.select p q .load .none)) := rfl

theorem exec_badOperation (p : Program) (q : Parity) (code : BitVec 3) (s : State) :
    exec (.badOperation p q code) s = .next (s.setKeys (s.keys.select p q .none .badOperation)) := rfl

theorem exec_keyData (half : Word) (s : State) : exec (.keyData half) s = .next (s.setKeys (s.keys.data half)) := rfl

theorem exec_installEnd_of_some {s : State} {i : Install} (h : s.keys.install = some i) :
    exec .installEnd s = .next ((s.setKeys (s.keys.installed i)).raise .keyDone) := by
  change execInstallEnd s = _
  rw [execInstallEnd, h]

/-- R100. -/
theorem Keys.select_busy {k : Keys} (busy : k.busy = true) (p : Program) (q : Parity) (op : KeyOperation)
    (result : KeyResult) : k.select p q op result = { k with ignored := true } := by
  rw [Keys.select, if_pos busy]

theorem Keys.eraseSlot_busy {k : Keys} (busy : k.busy = true) (p : Program) (q : Parity) :
    k.eraseSlot p q = { k with ignored := true } := by
  rw [Keys.eraseSlot, if_pos busy, Keys.select_busy busy]

/-- R98, R100: a KEY_DATA write that finds no LOAD waiting for a half. -/
theorem Keys.data_ignored {k : Keys} (h : ¬ (k.busy = false ∧ k.selOperation = .load ∧ k.dataIndex.toNat < 2)) (half : Word) :
    k.data half = { k with ignored := true } := by
  have refused : (k.busy || k.selOperation != .load || decide (2 ≤ k.dataIndex.toNat)) = true := by
    by_contra c
    refine h ?_
    simp only [Bool.not_eq_true, Bool.or_eq_false_iff, bne_eq_false_iff_eq, decide_eq_false_iff_not, not_le] at c
    exact ⟨c.1.1, c.1.2, c.2⟩
  rw [Keys.data, if_pos refused]

section
variable {k : Keys} (busy : k.busy = false) (load : k.selOperation = .load)
include busy load

theorem Keys.data_first (index : k.dataIndex = 0) (half : Word) : k.data half = { k with staged := half, dataIndex := 1 } := by
  simp [Keys.data, busy, load, index]

theorem Keys.data_protected (index : k.dataIndex = 1) (hp : k.isProtected k.selProgram k.selParity = true) (half : Word) :
    k.data half = { k with dataIndex := 2, staged := 0, result := .refusedActive } := by
  simp [Keys.data, busy, load, index, hp]

theorem Keys.data_installs (index : k.dataIndex = 1) (hp : k.isProtected k.selProgram k.selParity = false) (half : Word) :
    k.data half =
      { (k.setSlot k.selProgram k.selParity .installing) with
        dataIndex := 2, staged := 0, busy := true
        install := some { program := k.selProgram, parity := k.selParity, word := half ++ k.staged } } := by
  simp [Keys.data, busy, load, index, hp, joinHalves]

end

/-- R98: no register shows the staged half. -/
theorem readRegister_staged (s : State) (x : Word) (offset : Nat) :
    readRegister { s with keys := { s.keys with staged := x } } offset = readRegister s offset := by
  unfold readRegister
  split <;> rfl

/-- Settles O16. -/
theorem keySelectSetsTheSelection : Obligations.KeySelectSetsTheSelection := by
  intro p q code half s
  refine ⟨fun busy => ⟨?none, ?load, fun _ => ?bad⟩, fun busy c hc => ?ignored⟩
  case none => rw [exec_keySelectNone, Keys.select_accepted busy]; rfl
  case load => rw [exec_load, Keys.select_accepted busy]; rfl
  case bad => rw [exec_badOperation, Keys.select_accepted busy]; rfl
  case ignored =>
    obtain rfl | rfl | rfl | rfl | rfl := hc
    · rw [exec_keySelectNone, Keys.select_busy busy]; rfl
    · rw [exec_load, Keys.select_busy busy]; rfl
    · rw [exec_erase, Keys.eraseSlot_busy busy]; rfl
    · rw [exec_badOperation, Keys.select_busy busy]; rfl
    · rw [exec_keyData, Keys.data_ignored (fun h => by simp [busy] at h)]; rfl

/-- Settles O18. -/
theorem keyDataLoadsTheSelectedSlot : Obligations.KeyDataLoadsTheSelectedSlot := by
  intro half s
  refine ⟨fun h => ?ignored, fun busy load index => ?first, fun busy load index => ⟨fun hp => ?guarded, fun hp => ?installs⟩, rfl
    , readRegister_staged s⟩
  case ignored => rw [exec_keyData, Keys.data_ignored h]; rfl
  case first => rw [exec_keyData, Keys.data_first busy load index]; rfl
  case guarded => rw [exec_keyData, Keys.data_protected busy load index ((Keys.isProtected_iff ..).mpr hp)]; rfl
  case installs =>
    have free : s.keys.isProtected s.keys.selProgram s.keys.selParity = false := by
      rw [Bool.eq_false_iff]
      exact mt (Keys.isProtected_iff ..).mp hp
    refine ⟨_, by rw [exec_keyData, Keys.data_installs busy load index free], ?_, fun p q ne => ?_, rfl⟩
    · exact Keys.slot_setSlot_same ..
    · exact Keys.slot_setSlot_ne _ ne _

/-- Settles O19. -/
theorem installEndLoadsTheSlot : Obligations.InstallEndLoadsTheSlot := by
  intro s i h
  refine ⟨_, exec_installEnd_of_some h, ?_, fun p q ne => ?_, rfl⟩
  · exact Keys.slot_setSlot_same ..
  · exact Keys.slot_setSlot_ne _ ne _

/-- Settles O21. -/
theorem captureEndReplacesTheHolding : Obligations.CaptureEndReplacesTheHolding := by
  intro s x h
  rw [exec_captureEnd_of_some h]
  cases hx : x.slot with
  | empty => simp only [Capture.holding, hx]; rfl
  | installing => simp only [Capture.holding, hx]; rfl
  | loaded word => simp only [Capture.holding, hx]; rfl

/-! ### Parity decisions -/

theorem KeySlot.state_beq_loaded (x : KeySlot) : (x.state == .loaded) = true ↔ ∃ w, x = .loaded w := by
  cases x with
  | empty => simp [KeySlot.state]
  | installing => simp [KeySlot.state]
  | loaded w => simp [KeySlot.state]

theorem KeySlot.state_bne_installing (x : KeySlot) : (x.state != .installing) = decide (x ≠ .installing) := by
  cases x with
  | empty => rfl
  | installing => rfl
  | loaded w => rfl

/-- R106: a due switch to a loaded slot takes place. -/
theorem ParityRecord.decision_switch {r : ParityRecord} {slots : KeyPair} {m n : Word} {q : Parity} {w : Long}
    (pending : r.pending = some (q, n)) (due : switchDue m n = true) (loaded : slots.slot q = .loaded w) :
    r.decision slots m = { r with inForce := true, active := some q, pending := none, switchHeld := false } := by
  simp [ParityRecord.decision, pending, due, loaded, KeySlot.state]

/-- R105, R106: what a decision at which no switch takes place leaves. -/
theorem ParityRecord.decision_stays {r : ParityRecord} {slots : KeyPair} {m : Word} {due : Bool}
    (hdue : (r.pending.any fun p => switchDue m p.2) = due)
    (hready : due = true → (r.pending.any fun p => (slots.slot p.1).state == .loaded) = false) :
    r.decision slots m =
      if r.inForce then { r with switchHeld := if due then true else r.switchHeld }
      else { r with inForce := decide (slots.even ≠ .installing), active := some .even
                    switchHeld := if due then true else r.switchHeld } := by
  have none : (due && r.pending.any fun p => (slots.slot p.1).state == .loaded) = false := by
    cases due with
    | false => rfl
    | true => exact hready rfl
  simp only [ParityRecord.decision, hdue, none, KeySlot.state_bne_installing, Bool.false_eq_true, if_false]

/-- Settles O23. -/
theorem parityDecisionFollowsTheSchedule : Obligations.ParityDecisionFollowsTheSchedule := by
  refine ⟨fun r q n => ⟨fun h => if_pos h, fun h => if_neg h⟩, fun r slots m => ⟨fun q n w pending due loaded => ?switch
    , fun q n pending due empty => ?held, fun quiet => ?quiet⟩⟩
  case switch => exact ParityRecord.decision_switch pending due loaded
  case held =>
    have stays := ParityRecord.decision_stays (r := r) (slots := slots) (m := m) (due := true) (by simp [pending, due])
      fun _ => by
        rw [pending, Option.any_some, Bool.eq_false_iff]
        exact fun h => ((slots.slot q).state_beq_loaded.mp h).elim empty
    refine ⟨fun force => ?_, fun force even => ?_, fun force even => ?_⟩
    · rw [stays, if_pos force, if_pos rfl]
    · simp [stays, force, even]
    · simp [stays, force, even]
  case quiet =>
    have stays := ParityRecord.decision_stays (r := r) (slots := slots) (m := m) (due := false) (by
      cases hp : r.pending with
      | none => rfl
      | some x => exact quiet x.1 x.2 hp) fun h => by cases h
    refine ⟨fun force => ?_, fun force even => ?_, fun force even => ?_⟩
    · rw [stays, if_pos force]
      rfl
    · simp [stays, force, even]
    · simp [stays, force, even]

/-! ### Register writes and turned away commands -/

/-- Settles O25. -/
theorem registerWritesTakeEffect : Obligations.RegisterWritesTakeEffect := by
  intro v s
  refine ⟨⟨_, rfl, fun i hi => ?events, rfl⟩, ⟨_, rfl, fun i hi => ?enable, rfl⟩, fun f i => ?raised, rfl, rfl
    , ⟨_, rfl, ?low, ?lowOther, rfl⟩, ⟨_, rfl, ?high, ?highOther, rfl⟩⟩
  case events =>
    change (s.control.events &&& ~~~(v.extractLsb' 0 8)).getLsbD i = _
    simp [hi]
  case enable =>
    change (v.extractLsb' 0 8).getLsbD i = _
    simp [hi]
  case raised => exact BitVec.getLsbD_or
  case low =>
    change some ((s.control.directory.extractLsb' 32 32 ++ v).extractLsb' 0 32) = some v
    rw [BitVec.extractLsb'_append_eq_right]
  case lowOther =>
    change some ((s.control.directory.extractLsb' 32 32 ++ v).extractLsb' 32 32) = some (s.control.directory.extractLsb' 32 32)
    rw [BitVec.extractLsb'_append_eq_left]
  case high =>
    change some ((v ++ s.control.directory.extractLsb' 0 32).extractLsb' 32 32) = some v
    rw [BitVec.extractLsb'_append_eq_left]
  case highOther =>
    change some ((v ++ s.control.directory.extractLsb' 0 32).extractLsb' 0 32) = some (s.control.directory.extractLsb' 0 32)
    rw [BitVec.extractLsb'_append_eq_right]

/-- R172: what a CONTROL write does that is no HALT and no RESET. -/
theorem State.command_busy {s : State} {f : CommandName} (h : s.control.inFlight = some f) (c : CommandName)
    (run : State → State) : s.command c run = { s with control := { s.control with ignored := true } } := by
  rw [State.command, h]
  rfl

/-- R172: the completion of a command that was not accepted. -/
theorem State.notIgnored_complete {s : State} (h : s.control.inFlight = none) (last : Option CommandName)
    (result : CmdResult) :
    s.notIgnored.complete last result = { s with control := { s.control with
      ignored := false, last := last, result := result, events := s.control.events ||| 1
      line := ((s.control.events ||| 1) &&& s.control.enable) != 0 } } := by
  change ({ s with control := { s.control with
    inFlight := none, ignored := false, last := last, result := result, events := s.control.events ||| 1
    line := ((s.control.events ||| 1) &&& s.control.enable) != 0 } } : State) = _
  rw [← h]

theorem State.command_wrongState {s : State} {c : CommandName} (h : s.control.inFlight = none)
    (hd : acceptedIn c s.control.device = false) (run : State → State) :
    s.command c run = { s with control := { s.control with
      ignored := false, last := some c, result := .wrongState, events := s.control.events ||| 1
      line := ((s.control.events ||| 1) &&& s.control.enable) != 0 } } := by
  rw [State.command, if_neg (by simp [h]), if_neg (by simp [hd]), State.notIgnored_complete h]

theorem exec_badCommand_free {s : State} (h : s.control.inFlight = none) (code : Byte) :
    exec (.badCommand code) s = .next (s.notIgnored.complete none .badCommand) := by
  change execBadCommand code s = _
  rw [execBadCommand, h]
  rfl

/-- Settles O28. -/
theorem commandsAreTurnedAway : Obligations.CommandsAreTurnedAway := by
  intro first count code s
  refine ⟨fun x hx => ?known, fun h => ?unknown⟩
  case unknown => rw [exec_badCommand_free h, State.notIgnored_complete h]
  have turned : ∀ (c : Instr) (name : CommandName) (states : List DeviceState) (run : State → State),
      exec c s = .next (s.command name run) → (s.control.device ∉ states → acceptedIn name s.control.device = false) →
      (∀ f, s.control.inFlight = some f → exec c s = .next { s with control := { s.control with ignored := true } }) ∧
      (s.control.inFlight = none → s.control.device ∉ states →
        exec c s = .next { s with control := { s.control with
          ignored := false, last := some name, result := .wrongState, events := s.control.events ||| 1
          line := ((s.control.events ||| 1) &&& s.control.enable) != 0 } }) := by
    intro c name states run hexec hstates
    exact ⟨fun f h => by rw [hexec, State.command_busy h], fun h hd => by rw [hexec, State.command_wrongState h (hstates hd)]⟩
  simp only [List.mem_cons, List.not_mem_nil, or_false] at hx
  obtain rfl | rfl | rfl | rfl | rfl | rfl := hx
  · exact turned _ _ _ _ rfl fun h => by simpa [acceptedIn] using h
  · exact turned _ _ _ _ rfl fun h => by simpa [acceptedIn] using h
  · exact turned _ _ _ _ rfl fun h => by simpa [acceptedIn] using h
  · exact turned _ _ _ _ rfl fun h => by simpa [acceptedIn] using h
  · exact turned _ _ _ _ rfl fun h => by simpa [acceptedIn] using h
  · exact turned _ _ _ _ rfl fun h => by simpa [acceptedIn] using h

end Sys2Proof.Machine

/-! PROOFS. STATUS and the words of the register window (O26, O27), the only command that stops (O15), and small functions of the
blocks: the effective complexity (O47), the completion reports (O45) and the cue latch (O57). -/

namespace Sys2Proof.Machine

/-! ### Fields of a word -/

/-- What stands in a word above `low` and below a multiple of `2 ^ (start + len)`. -/
theorem extractLsb'_of_toNat {x : Word} {low v high start len : Nat}
    (h : x.toNat = low + v * 2 ^ start + high * 2 ^ (start + len)) (hlow : low < 2 ^ start) :
    x.extractLsb' start len = BitVec.ofNat len v := by
  apply BitVec.eq_of_toNat_eq
  have split : x.toNat = low + 2 ^ start * (v + high * 2 ^ len) := by rw [h, Nat.pow_add]; ring
  rw [BitVec.extractLsb'_toNat, BitVec.toNat_ofNat, Nat.shiftRight_eq_div_pow, split,
    Nat.add_mul_div_left _ _ (Nat.two_pow_pos start), Nat.div_eq_of_lt hlow, Nat.zero_add, Nat.add_mul_mod_self_right]

theorem getLsbD_of_toNat {x : Word} {low high i : Nat} {b : Bool}
    (h : x.toNat = low + boolNat b * 2 ^ i + high * 2 ^ (i + 1)) (hlow : low < 2 ^ i) : x.getLsbD i = b := by
  have field := extractLsb'_of_toNat (len := 1) h hlow
  have bit := congrArg (fun y => y.getLsbD 0) field
  simp only [BitVec.getLsbD_extractLsb', Nat.add_zero, Nat.zero_lt_one, decide_true, Bool.true_and] at bit
  rw [bit]
  cases b with
  | false => rfl
  | true => rfl

/-! ### STATUS -/

theorem keyResultCode_le (r : KeyResult) : keyResultCode r ≤ 4 := by
  cases r with
  | none => decide
  | loaded => decide
  | erased => decide
  | refusedActive => decide
  | badOperation => decide

/-- R186: the fields of STATUS stand beside each other. -/
theorem statusWord_toNat (s : State) :
    (statusWord s).toNat =
      s.timer.number.toNat % 65536
        + deviceCode s.control.device * 65536
        + inFlightCode s.control.inFlight * 524288
        + completionCode s.control.last s.control.result * 2097152
        + boolNat s.control.ignored * 67108864
        + boolNat s.keys.busy * 134217728
        + boolNat s.keys.ignored * 268435456
        + keyResultCode s.keys.result * 536870912 := by
  have hdevice := deviceCode_le s.control.device
  have hinFlight := inFlightCode_le s.control.inFlight
  have hcompletion := completionCode_le s.control.last s.control.result
  have hignored := boolNat_le s.control.ignored
  have hbusy := boolNat_le s.keys.busy
  have hkeyIgnored := boolNat_le s.keys.ignored
  have hresult := keyResultCode_le s.keys.result
  rw [statusWord, BitVec.toNat_ofNat]
  omega

section
variable (s : State)

theorem statusWord_number : (statusWord s).extractLsb' 0 16 = s.timer.number.extractLsb' 0 16 := by
  have total := statusWord_toNat s
  apply BitVec.eq_of_toNat_eq
  rw [BitVec.extractLsb'_toNat, BitVec.extractLsb'_toNat, total]
  omega

theorem statusWord_device : (statusWord s).extractLsb' 16 3 = BitVec.ofNat 3 (deviceCode s.control.device) :=
  extractLsb'_of_toNat (low := s.timer.number.toNat % 65536)
    (high := inFlightCode s.control.inFlight + completionCode s.control.last s.control.result * 4
      + boolNat s.control.ignored * 128 + boolNat s.keys.busy * 256 + boolNat s.keys.ignored * 512
      + keyResultCode s.keys.result * 1024)
    (by rw [statusWord_toNat]; omega) (by omega)

theorem statusWord_inFlight : (statusWord s).extractLsb' 19 2 = BitVec.ofNat 2 (inFlightCode s.control.inFlight) := by
  have device := deviceCode_le s.control.device
  exact extractLsb'_of_toNat (low := s.timer.number.toNat % 65536 + deviceCode s.control.device * 65536)
    (high := completionCode s.control.last s.control.result + boolNat s.control.ignored * 32 + boolNat s.keys.busy * 64
      + boolNat s.keys.ignored * 128 + keyResultCode s.keys.result * 256)
    (by rw [statusWord_toNat]; omega) (by omega)

theorem statusWord_completion :
    (statusWord s).extractLsb' 21 5 = BitVec.ofNat 5 (completionCode s.control.last s.control.result) := by
  have device := deviceCode_le s.control.device
  have inFlight := inFlightCode_le s.control.inFlight
  exact extractLsb'_of_toNat
    (low := s.timer.number.toNat % 65536 + deviceCode s.control.device * 65536 + inFlightCode s.control.inFlight * 524288)
    (high := boolNat s.control.ignored + boolNat s.keys.busy * 2 + boolNat s.keys.ignored * 4
      + keyResultCode s.keys.result * 8)
    (by rw [statusWord_toNat]; omega) (by omega)

/-- The fields of STATUS below bit 26. -/
def statusLow : Nat :=
  s.timer.number.toNat % 65536 + deviceCode s.control.device * 65536 + inFlightCode s.control.inFlight * 524288
    + completionCode s.control.last s.control.result * 2097152

theorem statusLow_lt : statusLow s < 67108864 := by
  have device := deviceCode_le s.control.device
  have inFlight := inFlightCode_le s.control.inFlight
  have completion := completionCode_le s.control.last s.control.result
  rw [statusLow]
  omega

theorem statusWord_toNat_flags :
    (statusWord s).toNat = statusLow s + boolNat s.control.ignored * 67108864 + boolNat s.keys.busy * 134217728
      + boolNat s.keys.ignored * 268435456 + keyResultCode s.keys.result * 536870912 := by
  rw [statusWord_toNat, statusLow]

theorem statusWord_ignored : (statusWord s).getLsbD 26 = s.control.ignored :=
  getLsbD_of_toNat (low := statusLow s)
    (high := boolNat s.keys.busy + boolNat s.keys.ignored * 2 + keyResultCode s.keys.result * 4)
    (by rw [statusWord_toNat_flags]; omega) (statusLow_lt s)

theorem statusWord_busy : (statusWord s).getLsbD 27 = s.keys.busy := by
  have low := statusLow_lt s
  have ignored := boolNat_le s.control.ignored
  exact getLsbD_of_toNat (low := statusLow s + boolNat s.control.ignored * 67108864)
    (high := boolNat s.keys.ignored + keyResultCode s.keys.result * 2)
    (by rw [statusWord_toNat_flags]; omega) (by omega)

theorem statusWord_keyIgnored : (statusWord s).getLsbD 28 = s.keys.ignored := by
  have low := statusLow_lt s
  have ignored := boolNat_le s.control.ignored
  have busy := boolNat_le s.keys.busy
  exact getLsbD_of_toNat
    (low := statusLow s + boolNat s.control.ignored * 67108864 + boolNat s.keys.busy * 134217728)
    (high := keyResultCode s.keys.result) (by rw [statusWord_toNat_flags]; omega) (by omega)

end

theorem statusWord_afterReset (s : State) (store : Store) (control : Control) (hd : control.device = .idle)
    (hf : control.inFlight = none) (hi : control.ignored = false) :
    statusWord (s.afterReset control store) = BitVec.ofNat 32 (completionCode control.last control.result * 2 ^ 21) := by
  apply BitVec.eq_of_toNat_eq
  have completion := completionCode_le control.last control.result
  have timer : (s.afterReset control store).timer = Timer.reset := rfl
  have keys : (s.afterReset control store).keys = Keys.reset := rfl
  have unit : (s.afterReset control store).control = control := rfl
  rw [statusWord_toNat, BitVec.toNat_ofNat, timer, keys, unit, hd, hf, hi]
  have fields : Timer.reset.number.toNat = 0 := rfl
  simp [fields, Keys.reset, deviceCode, inFlightCode, boolNat, keyResultCode]
  omega

/-- Settles O26. -/
theorem statusShowsItsFields : Obligations.StatusShowsItsFields := by
  refine ⟨fun s => ⟨statusWord_number s, fun x hx h => ?device, fun x hx h => ?inFlight, fun x hx last result => ?completion
    , statusWord_ignored s, statusWord_busy s, statusWord_keyIgnored s, fun x hx h => ?keyResult⟩
    , fun s t => ⟨fun h => ?power, fun h => ?bus, fun h => ?reset⟩⟩
  case device =>
    have code : ∀ y ∈ [(DeviceState.idle, 0), (.starting, 1), (.running, 2), (.draining, 3), (.halting, 4), (.testing, 5)],
        deviceCode y.1 = y.2 := by decide
    rw [statusWord_device, h, code x hx]
  case inFlight =>
    have code : ∀ y ∈ [(none, 0), (some CommandName.start, 0), (some .halt, 0), (some .testPages, 0), (some .loadFilters, 1)
        , (some .reloadRegions, 2), (some .probe, 3)], inFlightCode y.1 = y.2 := by decide
    rw [statusWord_inFlight, h, code x hx]
  case completion =>
    rw [statusWord_completion, last, result]
    congr 1
    clear last result
    revert x
    decide
  case keyResult =>
    have code : ∀ y ∈ [(KeyResult.none, 0), (.loaded, 1), (.erased, 2), (.refusedActive, 3), (.badOperation, 4)],
        keyResultCode y.1 = y.2 := by decide
    rw [statusWord_keyResult, h, code x hx]
  case power =>
    cases h
    exact statusWord_afterReset s Store.reset Control.reset rfl rfl rfl
  case bus =>
    cases h
    exact statusWord_afterReset s Store.reset Control.reset rfl rfl rfl
  case reset =>
    cases h
    exact statusWord_afterReset s (s.store.rebuilt s.retiredAfterReset) s.control.afterReset rfl rfl rfl

/-! ### The words of the register window -/

theorem decodeControl_testPages (first count : BitVec 12) :
    decodeControl (count ++ first ++ (6 : Byte)) = .testPages first count := by
  have code : (count ++ first ++ (6 : Byte)).extractLsb' 0 8 = 6 := BitVec.extractLsb'_append_eq_right
  have low : (count ++ first ++ (6 : Byte)).extractLsb' 8 12 = first := by
    rw [BitVec.extractLsb'_append_eq_of_le (by omega)]
    exact BitVec.extractLsb'_append_eq_right
  have high : (count ++ first ++ (6 : Byte)).extractLsb' 20 12 = count := by
    rw [BitVec.extractLsb'_append_eq_of_le (by omega)]
    exact BitVec.extractLsb'_append_eq_left
  rw [decodeControl, code, low, high]
  rfl

theorem decodeControl_badCommand {code : Byte} (h : code = 0 ∨ 8 < code.toNat) :
    decodeControl (code.setWidth 32) = .badCommand code := by
  have field : (code.setWidth 32).extractLsb' 0 8 = code := by
    apply BitVec.eq_of_toNat_eq
    rw [BitVec.extractLsb'_toNat, BitVec.toNat_setWidth]
    omega
  rw [decodeControl, field]
  split
  case h_9 => rfl
  all_goals
    rename_i e
    obtain rfl | h := h
    · cases e
    · omega

/-! The three fields of a KEY_SELECT word (R185). -/

section
variable (p : Program) (q : Parity) (operation : BitVec 3)

theorem keySelectWrite_program : ((keySelectWrite p q operation).extractLsb' 0 4).toFin = p :=
  congrArg BitVec.toFin (BitVec.extractLsb'_append_eq_right (b := BitVec.ofFin (w := 4) p))

theorem keySelectWrite_operation : (keySelectWrite p q operation).extractLsb' 5 3 = operation := by
  rw [keySelectWrite, BitVec.extractLsb'_append_eq_of_le (by omega), BitVec.extractLsb'_append_eq_of_le (by omega)]
  exact BitVec.extractLsb'_append_eq_right

theorem keySelectWrite_parity : (if (keySelectWrite p q operation).getLsbD 4 then Parity.odd else .even) = q := by
  have bit : (keySelectWrite p q operation).getLsbD 4 = decide (q = .odd) := by
    rw [keySelectWrite, BitVec.getLsbD_append, BitVec.getLsbD_append]
    simp
  rw [bit]
  cases q with
  | even => rfl
  | odd => rfl

theorem decodeKeySelect_none : decodeKeySelect (keySelectWrite p q 0) = .keySelectNone p q := by
  rw [decodeKeySelect, keySelectWrite_program, keySelectWrite_operation, keySelectWrite_parity]
  rfl

theorem decodeKeySelect_load : decodeKeySelect (keySelectWrite p q 1) = .load p q := by
  rw [decodeKeySelect, keySelectWrite_program, keySelectWrite_operation, keySelectWrite_parity]
  rfl

theorem decodeKeySelect_erase : decodeKeySelect (keySelectWrite p q 2) = .erase p q := by
  rw [decodeKeySelect, keySelectWrite_program, keySelectWrite_operation, keySelectWrite_parity]
  rfl

theorem decodeKeySelect_badOperation (unknown : 2 < operation.toNat) :
    decodeKeySelect (keySelectWrite p q operation) = .badOperation p q operation := by
  rw [decodeKeySelect, keySelectWrite_program, keySelectWrite_operation, keySelectWrite_parity]
  split
  case h_4 => rfl
  all_goals omega

end

/-- Settles O27. -/
theorem registerWordsDecodeBack : Obligations.RegisterWordsDecodeBack := by
  intro c offset word formed h
  cases c with
  | testPages first count =>
    cases h
    exact congrArg some (decodeControl_testPages first count)
  | badCommand code =>
    cases h
    exact congrArg some (decodeControl_badCommand (by simpa [Instr.wellFormed] using formed))
  | registerWrite register value =>
    cases register with
    | status => cases h; rfl
    | directoryLow => cases h; rfl
    | directoryHigh => cases h; rfl
    | keyCheck => cases h; rfl
  | keySelectNone p q => cases h; exact congrArg some (decodeKeySelect_none p q)
  | load p q => cases h; exact congrArg some (decodeKeySelect_load p q)
  | erase p q => cases h; exact congrArg some (decodeKeySelect_erase p q)
  | badOperation p q code =>
    cases h
    exact congrArg some (decodeKeySelect_badOperation p q code (by simpa [Instr.wellFormed] using formed))
  | start | stop | halt | loadFilters | reloadRegions | probe | reset => cases h; rfl
  | events value | eventEnable value | keyData value => cases h; rfl
  | _ => cases h

end Sys2Proof.Machine

/-! PROOFS. The only command that stops (O15), and small functions of the blocks: the effective complexity (O47), the completion
reports (O45) and the cue latch (O57). -/

namespace Sys2Proof.Machine

/-! ### Commands that stop -/

/-- The outcome is a next state: no refusal and no stop. -/
def Continues (o : Host.Outcome State Fault Refusal) : Prop := ∃ t, o = .next t

theorem Continues.next (t : State) : Continues (.next t) := ⟨t, rfl⟩

theorem Continues.ite {p : Prop} [Decidable p] {a b : Host.Outcome State Fault Refusal} (ha : Continues a)
    (hb : Continues b) : Continues (if p then a else b) := by
  split
  · exact ha
  · exact hb

section
variable (s : State)

theorem execInstallEnd_continues : Continues (execInstallEnd s) := by
  unfold execInstallEnd
  split
  · exact .next _
  · exact .next _

theorem execCaptureEnd_continues : Continues (execCaptureEnd s) := by
  unfold execCaptureEnd
  split
  · exact .next _
  · exact .next _

theorem execSideLink_continues : Continues (execSideLink s) := by
  unfold execSideLink
  split
  · split
    · exact .next _
    · exact .next _
  · exact .next _

theorem execFaultRecordWriteEnd_continues : Continues (execFaultRecordWriteEnd s) := by
  unfold execFaultRecordWriteEnd
  split
  · exact .next _
  · exact .next _

theorem execPassEnd_continues (e : Engine) : Continues (execPassEnd e s) := by
  unfold execPassEnd
  split
  · exact .ite (.next _) (.ite (.next _) (.ite (.next _) (.ite (.next _) (.next _))))
  · exact .next _

theorem execFloorPassEnd_continues (e : Engine) : Continues (execFloorPassEnd e s) := by
  unfold execFloorPassEnd
  split
  · refine .ite ?_ (.next _)
    split
    · exact .next _
    · exact .next _
    · split
      · exact .next _
      · exact .next _
  · exact .next _

theorem execJobCompletion_continues (e : Engine) : Continues (execJobCompletion e s) := by
  unfold execJobCompletion
  split
  · exact .next _
  · exact .next _

theorem execIntakeComplete_continues : Continues (execIntakeComplete s) := by
  unfold execIntakeComplete
  split
  · exact .next _
  · exact .ite (.ite (.next _) (.next _)) (.next _)

theorem execAllocationComplete_continues : Continues (execAllocationComplete s) := by
  unfold execAllocationComplete
  split
  · exact .next _
  · exact .next _

theorem execCompletionReport_continues (p : Program) : Continues (execCompletionReport p s) := by
  unfold execCompletionReport
  split
  · exact .next _
  · exact .ite (.next _) (.next _)

theorem execStartComplete_continues : Continues (execStartComplete s) := by
  unfold execStartComplete
  split
  · exact .next _
  · exact .next _

theorem execLoadEnd_continues : Continues (execLoadEnd s) := by
  unfold execLoadEnd
  split
  · exact .next _
  · exact .next _
  · exact .next _

theorem execReloadEnd_continues : Continues (execReloadEnd s) := by
  unfold execReloadEnd
  split
  · exact .next _
  · exact .next _
  · exact .next _

theorem execProbeEnd_continues : Continues (execProbeEnd s) := by
  unfold execProbeEnd
  split
  · exact .next _
  · exact .next _

theorem execPageTested_continues (event : PageStep) : Continues (execPageTested event s) := by
  unfold execPageTested
  split
  · exact .next _
  · split
    · exact .next _
    · exact .next _
    · exact .next _
    · exact .next _

theorem execTestEnd_continues : Continues (execTestEnd s) := by
  unfold execTestEnd
  split
  · exact .next _
  · split
    · exact .next _
    · exact .next _

theorem execHalt_continues : Continues (execHalt s) := by
  unfold execHalt
  split
  · exact .next _
  · exact .ite (.next _) (.next _)
  · exact .next _

theorem execRegisterWrite_continues (register : PlainRegister) (value : Word) :
    Continues (execRegisterWrite register value s) := by
  cases register with
  | status => exact .next _
  | directoryLow => exact .next _
  | directoryHigh => exact .next _
  | keyCheck => exact .next _

/-- R154: an entry is sent unless it names a place that holds no cell. -/
theorem State.sendEntry_cases (check : ReadCheck) (entry : Entry) :
    Continues (s.sendEntry check entry) ∨ s.sendEntry check entry = .fault .unwrittenPlace ∧
      ∃ page place, entry = .stored page place ∧ s.store.cells.read (placeIndex page place) = none := by
  cases entry with
  | produced p count sequence => exact .inl (.next _)
  | stored page place =>
    cases hread : s.store.cells.read (placeIndex page place) with
    | none => exact .inr ⟨by simp only [State.sendEntry, hread], page, place, rfl, hread⟩
    | some cell =>
      by_cases hcheck : check = .uncorrectable
      · exact .inl ⟨_, hcheck ▸ State.sendEntry_uncorrectable hread⟩
      · exact .inl ⟨_, State.sendEntry_stored hread hcheck⟩

/-- What a CELL_REQUEST that stops the machine has found (R118, log 11). -/
structure State.AsksUnwritten (s : State) : Prop where
  active : s.line.active = true
  entry : ∃ p page place,
    (s.line.sending.look p).entries[(s.line.sending.look p).next]? = some (.stored page place) ∧
      s.store.cells.read (placeIndex page place) = none

theorem execCellRequest_cases (check : ReadCheck) :
    Continues (execCellRequest check s) ∨ execCellRequest check s = .fault .unwrittenPlace ∧ s.AsksUnwritten := by
  unfold execCellRequest
  dsimp only
  split
  case isFalse => exact .inl (.next _)
  case isTrue active =>
    split
    case isFalse => exact .inl (.next _)
    case isTrue =>
      split
      case h_1 => exact .inl (.next _)
      case h_2 p _ =>
        split
        case h_1 => exact .inl (.next _)
        case h_2 entry hentry =>
          refine (State.sendEntry_cases _ check entry).imp_right fun ⟨stops, page, place, e, unwritten⟩ => ⟨stops, active, ?_⟩
          exact ⟨p, page, place, by rw [hentry, e], unwritten⟩

/-- Every command has a next state but a CELL_REQUEST that asks for an unwritten place. -/
theorem exec_continues_or (c : Instr) :
    Continues (exec c s) ∨ exec c s = .fault .unwrittenPlace ∧ (∃ check, c = .cellRequest check) ∧ s.AsksUnwritten := by
  cases c with
  | cellRequest check =>
    exact (execCellRequest_cases s check).imp_right fun h => ⟨h.1, ⟨check, rfl⟩, h.2⟩
  | startComplete => exact .inl (execStartComplete_continues s)
  | halt => exact .inl (execHalt_continues s)
  | haltComplete => exact .inl (.ite (.next _) (.next _))
  | loadEnd => exact .inl (execLoadEnd_continues s)
  | reloadEnd => exact .inl (execReloadEnd_continues s)
  | pageTested event => exact .inl (execPageTested_continues s event)
  | testEnd => exact .inl (execTestEnd_continues s)
  | probeEnd => exact .inl (execProbeEnd_continues s)
  | badCommand code => exact .inl (.ite (.next _) (.next _))
  | installEnd => exact .inl (execInstallEnd_continues s)
  | keyCheck => exact .inl ⟨_, exec_keyCheck s⟩
  | captureEnd => exact .inl (execCaptureEnd_continues s)
  | registerWrite register value => exact .inl (execRegisterWrite_continues s register value)
  | boundary event => exact .inl (.ite (.next _) (.next _))
  | intakeComplete => exact .inl (execIntakeComplete_continues s)
  | allocationComplete => exact .inl (execAllocationComplete_continues s)
  | passEnd e => exact .inl (execPassEnd_continues s e)
  | floorPassEnd e => exact .inl (execFloorPassEnd_continues s e)
  | jobCompletion e => exact .inl (execJobCompletion_continues s e)
  | completionReport p => exact .inl (execCompletionReport_continues s p)
  | sideLink => exact .inl (execSideLink_continues s)
  | faultRecordWriteEnd => exact .inl (execFaultRecordWriteEnd_continues s)
  | start | stop | loadFilters | reloadRegions | probe | reset | powerOnReset | busFunctionReset => exact .inl (.next _)
  | testPages first count => exact .inl (.next _)
  | keySelectNone p q | load p q | erase p q => exact .inl (.next _)
  | badOperation p q code => exact .inl (.next _)
  | keyData value | events value | eventEnable value => exact .inl (.next _)
  | finishReport p | faultReport p => exact .inl (.next _)
  | accessCompletion tag data => exact .inl (.next _)
  | busError tag | completionTimeout tag => exact .inl (.next _)

end

/-- Settles O15. -/
theorem onlyAnUnwrittenPlaceStops : Obligations.OnlyAnUnwrittenPlaceStops := by
  intro c s
  obtain ⟨t, h⟩ | ⟨h, request, active, entry⟩ := exec_continues_or s c
  · rw [h]
    exact ⟨nofun, nofun⟩
  · rw [h]
    refine ⟨nofun, fun f e => ?_⟩
    cases e
    exact ⟨rfl, request, active, entry⟩

/-! ### The effective complexity -/

theorem sum_le_of_forall_le {xs : List Nat} {hi : Nat} (h : ∀ x ∈ xs, x ≤ hi) : xs.sum ≤ hi * xs.length := by
  have := List.sum_le_card_nsmul xs hi h
  rwa [smul_eq_mul, Nat.mul_comm] at this

theorem le_sum_of_forall_le {xs : List Nat} {lo : Nat} (h : ∀ x ∈ xs, lo ≤ x) : lo * xs.length ≤ xs.sum := by
  have := List.card_nsmul_le_sum xs lo h
  rwa [smul_eq_mul, Nat.mul_comm] at this

/-- Settles O47. -/
theorem effectiveComplexityIsAWeightedMean : Obligations.EffectiveComplexityIsAWeightedMean := by
  intro a rest
  refine ⟨rfl, fun lo h => ?_, fun hi h => ?_, ?_⟩
  · have first := h a List.mem_cons_self
    have behind := le_sum_of_forall_le fun x hx => h x (List.mem_cons_of_mem _ hx)
    rw [effectiveComplexity, Nat.le_div_iff_mul_le (by omega), Nat.mul_add]
    omega
  · have first := h a List.mem_cons_self
    have behind := sum_le_of_forall_le fun x hx => h x (List.mem_cons_of_mem _ hx)
    refine Nat.div_le_of_le_mul ?_
    rw [Nat.add_mul, Nat.mul_comm rest.length]
    omega
  · simp [effectiveComplexity]

/-! ### Completion reports -/

/-- R60: the report taken is the program's first. -/
theorem takeCompletion_first {pre post : List CompletionReport} {r : CompletionReport}
    (h : ∀ x ∈ pre, x.program ≠ r.program) : takeCompletion r.program (pre ++ r :: post) = some (r, pre ++ post) := by
  induction pre with
  | nil => simp [takeCompletion]
  | cons x pre ih =>
    have rest := ih fun y hy => h y (List.mem_cons_of_mem _ hy)
    simp [takeCompletion, h x List.mem_cons_self, rest]

theorem Allocator.isCurrent_iff (a : Allocator) (r : CompletionReport) :
    a.isCurrent r = true ↔ a.isOpen = true ∧ ∃ c, a.current = some c ∧ c.interval = r.interval := by
  simp [Allocator.isCurrent, Option.any_eq_true]

theorem appendDelivered_eq (delay : Nat) (delivered : List Nat) (size : Nat) :
    appendDelivered delay delivered size = (delivered ++ [size]).drop (delivered.length + 1 - delay) := by
  rw [appendDelivered, List.length_append, List.length_singleton]

/-- Settles O45. -/
theorem completionReportsAreAppended : Obligations.CompletionReportsAreAppended := by
  intro s pre post r hreports hpre
  have taken : exec (.completionReport r.program) s =
      if s.allocator.isCurrent r then
        .next ((s.setAllocator { s.allocator with reports := pre ++ post }).takeCompletionReport r)
      else .next (s.setAllocator { s.allocator with reports := pre ++ post }) := by
    change execCompletionReport r.program s = _
    rw [execCompletionReport, hreports, takeCompletion_first hpre]
    rfl
  rw [taken]
  refine ⟨fun a isOpen current interval => ?counted, fun closed => ?ignored⟩
  case counted =>
    rw [if_pos ((s.allocator.isCurrent_iff r).mpr ⟨isOpen, a, current, interval⟩)]
    refine ⟨_, rfl, ?_, PerProgram.look_put_same _ _ _, fun q ne => ⟨?_, ?_⟩, rfl⟩
    · exact (PerProgram.look_modify_same _ _ _).trans (appendDelivered_eq _ _ _)
    · exact PerProgram.look_modify_ne _ ne _
    · exact PerProgram.look_put_ne _ ne _
  case ignored =>
    have stale : ¬ s.allocator.isCurrent r = true := fun h => by
      obtain ⟨isOpen, c, current, interval⟩ := (s.allocator.isCurrent_iff r).mp h
      obtain shut | other := closed
      · rw [isOpen] at shut
        cases shut
      · exact other c current interval
    rw [if_neg stale]
    rfl

/-! ### The cue latch -/

/-- Settles O57. -/
theorem cueLatchFollowsItsLevel : Obligations.CueLatchFollowsItsLevel := by
  intro s p
  refine ⟨fun latch level => ?set, fun held => ?stays, fun d hd => ?other, rfl, rfl⟩
  case set =>
    rw [State.cueMatched, if_pos ⟨rfl, latch, level⟩]
    rfl
  case stays => exact if_neg fun ⟨_, latch, level⟩ => by simp [latch, level] at held
  case other => exact if_neg fun h => hd h.1

end Sys2Proof.Machine

/-! PROOFS. The end of an access (O39), and the commands that read a table or a slot: LOAD_FILTERS, RELOAD_REGIONS and PROBE (O33,
O34, O35). -/

namespace Sys2Proof.Machine

/-! ### The end of an access -/

section
variable {s : State} {pre post : List Access} {a : Access} (inFlight : s.link.accesses = pre ++ a :: post)
  (before : ∀ x ∈ pre, x.tag ≠ a.tag)
include inFlight before

/-- The access in flight with a tag is the one that has it. -/
theorem Link.find_of_split : s.link.find a.tag = some a := by
  have none : pre.find? (fun x => x.tag == a.tag) = none := List.find?_eq_none.mpr fun x hx => by simpa using before x hx
  rw [Link.find, inFlight, List.find?_append, none, Option.none_or, List.find?_cons_of_pos (by simp)]

variable (behind : ∀ x ∈ post, x.tag ≠ a.tag)
include behind

theorem State.removeAccess_of_split : s.removeAccess a.tag = s.setLink { s.link with accesses := pre ++ post } := by
  have kept : ∀ l : List Access, (∀ x ∈ l, x.tag ≠ a.tag) → l.filter (fun x => x.tag != a.tag) = l :=
    fun l h => List.filter_eq_self.mpr fun x hx => by simpa using h x hx
  rw [State.removeAccess, inFlight, List.filter_append, List.filter_cons_of_neg (by simp), kept pre before, kept post behind]

theorem State.endAccess_of_split (reply : Access → Reply) :
    s.endAccess a.tag reply = (s.setLink { s.link with accesses := pre ++ post }).deliver a.agent (reply a) := by
  rw [State.endAccess, Link.find_of_split inFlight before, ← State.removeAccess_of_split inFlight before behind]

theorem exec_accessCompletion_read (hk : a.kind = .read) (data : List Byte) :
    exec (.accessCompletion a.tag data) s =
      .next ((s.setLink { s.link with accesses := pre ++ post }).deliver a.agent (.done (exactly a.length data))) := by
  change Host.Outcome.next (s.endAccess a.tag _) = _
  rw [State.endAccess_of_split inFlight before behind, hk]

theorem exec_accessCompletion_write (hk : a.kind = .write) (data : List Byte) :
    exec (.accessCompletion a.tag data) s =
      .next ((s.setLink { s.link with accesses := pre ++ post }).deliver a.agent (.done [])) := by
  change Host.Outcome.next (s.endAccess a.tag _) = _
  rw [State.endAccess_of_split inFlight before behind, hk]

/-- R161: the two ends of an access with BUS. -/
theorem exec_busEnd {c : Instr} (hc : c = .busError a.tag ∨ c = .completionTimeout a.tag) :
    exec c s =
      .next ((s.setLink { s.link with accesses := pre ++ post }).deliver a.agent (.failed a.busFailure)) := by
  obtain rfl | rfl := hc
  · change Host.Outcome.next (s.endAccess a.tag _) = _
    rw [State.endAccess_of_split inFlight before behind]
  · change Host.Outcome.next (s.endAccess a.tag _) = _
    rw [State.endAccess_of_split inFlight before behind]

end

/-- A read of the length that is delivered gives its bytes. -/
theorem exactly_of_length {n : Nat} {data : List Byte} (h : n = data.length) : exactly n data = data := by
  simp [exactly, h, zeros]

/-- Settles O39. -/
theorem accessesEndAtTheirRequester : Obligations.AccessesEndAtTheirRequester := by
  intro s pre post a data inFlight before behind
  refine ⟨fun hk => ?read, fun hk => ?write, fun c hc => ?bus, fun ha hk => ?load, fun ha => ⟨?reloadError, ?reloadTimeout⟩⟩
  case read => exact exec_accessCompletion_read inFlight before behind hk data
  case write => exact exec_accessCompletion_write inFlight before behind hk data
  case bus => exact exec_busEnd inFlight before behind hc
  case load =>
    rw [exec_accessCompletion_read inFlight before behind hk, ha]
    rfl
  case reloadError =>
    rw [exec_busEnd inFlight before behind (.inl rfl), ha]
    rfl
  case reloadTimeout =>
    rw [exec_busEnd inFlight before behind (.inr rfl), ha]
    rfl

/-! ### Accepted commands -/

/-- R172: a command taken in a device state that accepts it begins. -/
theorem State.command_accepted {s : State} {c : CommandName} (free : s.control.inFlight = none)
    (accepts : acceptedIn c s.control.device = true) (run : State → State) : s.command c run = run (s.accept c) := by
  rw [State.command, if_neg (by simp [free]), if_pos accepts]

/-- An unchecked read is in flight (R159). -/
theorem State.issue_readRequest (s : State) (agent : Agent) (addr : Long) (length : Nat) :
    (s.issue (readRequest agent none addr length)).1 = { s with link := { s.link with
      accesses := s.link.accesses ++
        [{ tag := s.link.nextTag, agent := agent, kind := .read, addr := addr, length := length, key := none
           region := 0xFF, data := [] }]
      nextTag := s.link.nextTag + 1 } } := by
  rw [State.issue_unchecked s _ rfl]
  rfl

/-! ### LOAD_FILTERS -/

section
variable {s : State}

/-- R137: what the read of the filter table at an address begins, or that it has failed. -/
theorem State.loadFiltersRun_of_ok {addr : Long} {s1 : State} {region : Byte} (address : s.filterAddress = (addr, s1))
    (passes : checkAccess s1.link.regions (readRequest .filterLoad (some 0) addr 496) = .ok region) :
    s.loadFiltersRun = { s1 with
      control := { s1.control with filterLoad := some .reading }
      link := { s1.link with
        accesses := s1.link.accesses ++
          [{ tag := s1.link.nextTag, agent := .filterLoad, kind := .read, addr := addr, length := 496, key := some 0
             region := region, data := [] }]
        nextTag := s1.link.nextTag + 1 } } := by
  rw [State.loadFiltersRun, address]
  dsimp only
  rw [State.issue_of_ok (s := s1.setControl { s1.control with filterLoad := some .reading }) passes]
  rfl

theorem State.loadFiltersRun_of_error {addr : Long} {s1 : State} {e : AccessResult × Byte}
    (address : s.filterAddress = (addr, s1))
    (refused : checkAccess s1.link.regions (readRequest .filterLoad (some 0) addr 496) = .error e) :
    s.loadFiltersRun = { s1 with control := { s1.control with filterLoad := some .failed } } := by
  rw [State.loadFiltersRun, address]
  dsimp only
  rw [State.issue_of_error (s := s1.setControl { s1.control with filterLoad := some .reading }) refused]
  rfl

theorem State.filterAddress_of_settings {st : Settings} (h : s.control.settings = some st) :
    s.filterAddress = (st.filterTable, s) := by
  rw [State.filterAddress, h]

theorem acceptedIn_loadFilters (h : s.control.device = .idle ∨ s.control.device = .running ∨ s.control.device = .draining) :
    acceptedIn .loadFilters s.control.device = true := decide_eq_true h

theorem execLoadEnd_of_read {data : List Byte} (h : s.control.filterLoad = some (.read data)) :
    exec .loadEnd s = .next (s.loadFinish (.read data)) := by
  change execLoadEnd s = _
  rw [execLoadEnd, h]

theorem execLoadEnd_of_failed (h : s.control.filterLoad = some .failed) :
    exec .loadEnd s = .next (s.loadFinish .failed) := by
  change execLoadEnd s = _
  rw [execLoadEnd, h]

end

/-- Settles O33. -/
theorem filterLoadPutsATableInForce : Obligations.FilterLoadPutsATableInForce := by
  have starts : ∀ (s : State) (_ : s.control.inFlight = none)
      (_ : s.control.device = .idle ∨ s.control.device = .running ∨ s.control.device = .draining),
      exec .loadFilters s = .next (s.accept .loadFilters).loadFiltersRun := fun s free device => by
    change Host.Outcome.next (s.command .loadFilters State.loadFiltersRun) = _
    rw [State.command_accepted free (acceptedIn_loadFilters device)]
  refine ⟨fun s st region free device settings passes => ?issued, fun s st e free device settings refused => ?refused
    , fun s free device settings regions => ?free, fun s data table h read => ?ok, fun s data h read => ?invalid
    , fun s h => ?failed⟩
  case issued =>
    rw [starts s free device, State.loadFiltersRun_of_ok (State.filterAddress_of_settings (s := s.accept .loadFilters) settings) passes]
    rfl
  case refused =>
    rw [starts s free device,
      State.loadFiltersRun_of_error (State.filterAddress_of_settings (s := s.accept .loadFilters) settings) refused]
    rfl
  case free =>
    have address : (s.accept .loadFilters).filterAddress =
        (Config.filterTableAddress s.freeCount, (s.accept .loadFilters).setFreeCount (s.freeCount + 1)) := by
      rw [State.filterAddress, show (s.accept .loadFilters).control.settings = none from settings]
      rfl
    refine ⟨Config.filterTableAddress s.freeCount, ?_⟩
    rw [starts s free (.inl device), State.loadFiltersRun_of_ok (region := 0xFF) address]
    · rfl
    · rw [show ((s.accept .loadFilters).setFreeCount (s.freeCount + 1)).link.regions = none from regions]
      rfl
  case ok =>
    rw [execLoadEnd_of_read h, State.loadFinish]
    simp only [read]
    rfl
  case invalid =>
    rw [execLoadEnd_of_read h, State.loadFinish]
    simp only [read]
    rfl
  case failed =>
    rw [execLoadEnd_of_failed h]
    rfl

/-! ### RELOAD_REGIONS -/

section
variable {s : State}

theorem acceptedIn_reloadRegions (h : s.control.device = .running ∨ s.control.device = .draining) :
    acceptedIn .reloadRegions s.control.device = true := decide_eq_true h

theorem execReloadEnd_of_read {data : List Byte} (h : s.control.regionReload = some (.read data)) :
    exec .reloadEnd s = .next (s.reloadFinish (.read data)) := by
  change execReloadEnd s = _
  rw [execReloadEnd, h]

theorem execReloadEnd_of_failed (h : s.control.regionReload = some .failed) :
    exec .reloadEnd s = .next (s.reloadFinish .failed) := by
  change execReloadEnd s = _
  rw [execReloadEnd, h]

end

/-- Settles O34. -/
theorem regionReloadReplacesTheTable : Obligations.RegionReloadReplacesTheTable := by
  refine ⟨fun s free device => ?begins, fun s data table h read => ?ok, fun s data h read => ?invalid, fun s h => ?failed⟩
  case begins =>
    change Host.Outcome.next (s.command .reloadRegions State.reloadRun) = _
    rw [State.command_accepted free (acceptedIn_reloadRegions device), State.reloadRun, State.issue_readRequest]
    rfl
  case ok =>
    rw [execReloadEnd_of_read h, State.reloadFinish]
    simp only [read]
    rfl
  case invalid =>
    rw [execReloadEnd_of_read h, State.reloadFinish]
    simp only [read]
    rfl
  case failed =>
    rw [execReloadEnd_of_failed h]
    rfl

/-! ### PROBE -/

theorem alignedAddress_iff {d : Long} : alignedAddress d = true ↔ d ≠ 0 ∧ d.toNat % 8 = 0 := by
  simp [alignedAddress]

theorem judgeProbe_of_none {table : List Region} {addr : Long} {length : Nat}
    (h : length = 0 ∨ ∀ r ∈ table, r.contains addr length = false) (key : Byte) :
    judgeProbe table addr length key = (3, 0xFF) := by
  have found : (if length = 0 then none else findRegion addr length 0 table) = none := by
    split
    · rfl
    · rename_i nonzero
      exact findRegion_none.mpr (h.resolve_left nonzero)
  rw [judgeProbe, found]
  rfl

section
variable {table : List Region} {addr : Long} {length i : Nat} {r : Region} {key : Byte} (nonzero : length ≠ 0)
  (found : findRegion addr length 0 table = some (i, r))
include nonzero found

theorem judgeProbe_of_other_key (h : r.key ≠ 0 ∧ r.key ≠ key) : judgeProbe table addr length key = (2, BitVec.ofNat 8 i) := by
  simp only [judgeProbe, if_neg nonzero, found, if_pos h]

/-- R164: past the key the rights of the entry decide. -/
theorem judgeProbe_of_key (h : r.key = 0 ∨ r.key = key) :
    (r.rights = .none → judgeProbe table addr length key = (2, BitVec.ofNat 8 i)) ∧
      (r.rights = .read → judgeProbe table addr length key = (1, BitVec.ofNat 8 i)) ∧
      (r.rights = .readWrite → judgeProbe table addr length key = (0, BitVec.ofNat 8 i)) := by
  have passes : ¬ (r.key ≠ 0 ∧ r.key ≠ key) := by tauto
  simp only [judgeProbe, if_neg nonzero, found, if_neg passes]
  exact ⟨fun e => by rw [e], fun e => by rw [e], fun e => by rw [e]⟩

end

section
variable {s : State}

theorem acceptedIn_probe (h : s.control.device = .idle ∨ s.control.device = .running ∨ s.control.device = .draining) :
    acceptedIn .probe s.control.device = true := decide_eq_true h

/-- R164: with a table in force and a directory address the probe slot is read. -/
theorem State.probeRun_reads {d : Long} (regions : s.link.regions ≠ none) (directory : s.probeDirectory = some d) :
    s.probeRun = { s with
      control := { s.control with probe := some (.reading d) }
      link := { s.link with
        accesses := s.link.accesses ++
          [{ tag := s.link.nextTag, agent := .probe, kind := .read, addr := d + 0x40, length := 17, key := none
             region := 0xFF, data := [] }]
        nextTag := s.link.nextTag + 1 } } := by
  rw [State.probeRun, if_neg (by simpa using regions), directory]
  exact State.issue_readRequest ..

/-- R164: the answer is written behind the slot. -/
theorem State.probeAnswer_eq {table : List Region} (regions : s.link.regions = some table) (d : Long) (data : List Byte) :
    let answer := judgeProbe table (BitVec.ofNat 64 (leNat data 0 8)) (leNat data 8 8) (byteAt data 16)
    s.probeAnswer d data = { s with
      control := { s.control with probe := some .writing }
      link := { s.link with
        accesses := s.link.accesses ++
          [{ tag := s.link.nextTag, agent := .probe, kind := .write, addr := d + 0x51, length := 2, key := none
             region := 0xFF, data := [answer.1, answer.2] }]
        nextTag := s.link.nextTag + 1 } } := by
  rw [State.probeAnswer, regions]
  dsimp only
  rw [State.issue_unchecked _ _ (by rfl)]
  rfl

end

/-- Settles O35. -/
theorem probeJudgesItsRange : Obligations.ProbeJudgesItsRange := by
  refine ⟨fun s free device => ?accepted, fun table addr length key => ⟨fun h => judgeProbe_of_none h key
    , fun i r nonzero hr hc first => ?judged⟩, fun s pre post a data d table inFlight before behind agent => ?ends
    , fun s r h => ?completes⟩
  case accepted =>
    have starts : exec .probe s = .next (s.accept .probe).probeRun := by
      change Host.Outcome.next (s.command .probe State.probeRun) = _
      rw [State.command_accepted free (acceptedIn_probe device)]
    have completes : ∀ result, (s.accept .probe).complete (some .probe) result = { s with control := { s.control with
        ignored := false, last := some .probe, result := result, events := s.control.events ||| 1
        line := ((s.control.events ||| 1) &&& s.control.enable) != 0 } } := fun result =>
      (State.notIgnored_complete free (some .probe) result)
    refine ⟨fun none => ?_, fun table idle unaligned => ?_, fun d table hd => ?_⟩
    · rw [starts, State.probeRun, if_pos (by rw [show (s.accept .probe).link.regions = _ from none]; rfl), completes]
    · have directory : (s.accept .probe).probeDirectory = none := by
        have : alignedAddress (s.accept .probe).control.directory ≠ true := fun h => by
          obtain ⟨nonzero, eight⟩ := alignedAddress_iff.mp h
          exact unaligned.elim nonzero fun u => u eight
        rw [State.probeDirectory, if_pos (show (s.accept .probe).control.device = .idle from idle), if_neg this]
      rw [starts, State.probeRun, if_neg (by rw [Option.isNone_iff_eq_none]; exact table), directory]
      exact congrArg _ (completes _)
    · have directory : (s.accept .probe).probeDirectory = some d := by
        obtain ⟨idle, rfl, nonzero, eight⟩ | ⟨busy, rfl⟩ := hd
        · rw [State.probeDirectory, if_pos (show (s.accept .probe).control.device = .idle from idle),
            if_pos (show alignedAddress (s.accept .probe).control.directory = true from alignedAddress_iff.mpr ⟨nonzero, eight⟩)]
          rfl
        · exact if_neg busy
      rw [starts, State.probeRun_reads (s := s.accept .probe) table directory]
      rfl
  case judged =>
    have found : findRegion addr length 0 table = some (i, r) := by
      simpa using findRegion_of_first (i := 0) hc hr first
    exact ⟨judgeProbe_of_other_key nonzero found, judgeProbe_of_key nonzero found⟩
  case ends =>
    refine ⟨fun reading regions hk ha hl => ?_, fun writing hk => ?_, fun phase c hc => ?_⟩
    · rw [exec_accessCompletion_read inFlight before behind hk, agent, exactly_of_length (ha.trans hl.symm)]
      simp only [State.deliver, State.probeReply, State.setLink_control, reading]
      exact congrArg Host.Outcome.next
        (State.probeAnswer_eq (s := s.setLink { s.link with accesses := pre ++ post }) regions d data)
    · rw [exec_accessCompletion_write inFlight before behind hk, agent]
      simp only [State.deliver, State.probeReply, State.setLink_control, writing]
      rfl
    · rw [exec_busEnd inFlight before behind hc, agent]
      obtain phase | phase := phase
      · simp only [State.deliver, State.probeReply, State.setLink_control, phase]
        rfl
      · simp only [State.deliver, State.probeReply, State.setLink_control, phase]
        rfl
  case completes =>
    change execProbeEnd s = _
    rw [execProbeEnd, h]
    rfl

end Sys2Proof.Machine

/-! PROOFS. Byte order: what a field of a record reads (R184), the scrambling chain (O24) and the cells (O53). -/

namespace Sys2Proof.Machine

/-! ### Fields of a transfer -/

theorem byteAt_append_left {a b : List Byte} {i : Nat} (h : i < a.length) : byteAt (a ++ b) i = byteAt a i := by
  simp [byteAt, List.getElem?_append_left h]

theorem byteAt_append_right {a b : List Byte} {i : Nat} (h : a.length ≤ i) : byteAt (a ++ b) i = byteAt b (i - a.length) := by
  simp [byteAt, List.getElem?_append_right h]

theorem byteAt_of_length_le {bs : List Byte} {i : Nat} (h : bs.length ≤ i) : byteAt bs i = 0 := by
  simp [byteAt, List.getElem?_eq_none h]

theorem byteAt_zeros (n i : Nat) : byteAt (zeros n) i = 0 := by
  by_cases h : i < n
  · simp [byteAt, zeros, h]
  · exact byteAt_of_length_le (by simpa [zeros] using h)

/-- A byte of a transfer cut to a length. -/
theorem byteAt_exactly {n i : Nat} (h : i < n) (bs : List Byte) : byteAt (exactly n bs) i = byteAt bs i := by
  by_cases hi : i < bs.length
  · rw [exactly, byteAt_append_left (by simpa using ⟨h, hi⟩)]
    simp [byteAt, h]
  · rw [exactly, byteAt_append_right (by simp; omega), byteAt_zeros, byteAt_of_length_le (not_lt.mp hi)]

theorem leNat_congr {a b : List Byte} {off off' : Nat} :
    ∀ {n : Nat}, (∀ i < n, byteAt a (off + i) = byteAt b (off' + i)) → leNat a off n = leNat b off' n
  | 0, _ => rfl
  | n + 1, h => by
    have first := h 0 (Nat.succ_pos n)
    have rest := leNat_congr (a := a) (b := b) (off := off + 1) (off' := off' + 1) (n := n) fun i hi => by
      simpa [Nat.add_assoc, Nat.add_comm 1] using h (i + 1) (Nat.succ_lt_succ hi)
    simp only [Nat.add_zero] at first
    rw [leNat, leNat, first, rest]

theorem leNat_exactly {m off n : Nat} (h : off + n ≤ m) (bs : List Byte) : leNat (exactly m bs) off n = leNat bs off n :=
  leNat_congr fun i hi => byteAt_exactly (by omega) bs

theorem leNat_one (bs : List Byte) (off : Nat) : leNat bs off 1 = (byteAt bs off).toNat := by simp [leNat]

theorem leNat_lt (bs : List Byte) (off n : Nat) : leNat bs off n < 256 ^ n := by
  induction n generalizing off with
  | zero => simp [leNat]
  | succ n ih =>
    have rest := ih (off + 1)
    have byte := (byteAt bs off).isLt
    rw [leNat, Nat.pow_succ]
    omega

theorem leNat_append_right {a b : List Byte} {off : Nat} (h : a.length ≤ off) (n : Nat) :
    leNat (a ++ b) off n = leNat b (off - a.length) n :=
  leNat_congr fun i _ => by rw [byteAt_append_right (by omega), Nat.sub_add_comm h]

theorem leNat_append_left {a b : List Byte} {off n : Nat} (h : off + n ≤ a.length) :
    leNat (a ++ b) off n = leNat a off n :=
  leNat_congr fun i hi => byteAt_append_left (by omega)

theorem leNat_leBytes (n v : Nat) : leNat (leBytes n v) 0 n = v % 256 ^ n := by
  induction n generalizing v with
  | zero => simp [leNat, Nat.mod_one]
  | succ n ih =>
    have rest : leNat (leBytes (n + 1) v) 1 n = leNat (leBytes n (v / 256)) 0 n :=
      leNat_append_right (a := [BitVec.ofNat 8 v]) (b := leBytes n (v / 256)) (off := 1) (by simp) n
    have byte : (byteAt (leBytes (n + 1) v) 0).toNat = v % 256 := BitVec.toNat_ofNat v 8
    rw [leNat, byte, rest, ih, pow_succ', Nat.mod_mul]

/-! A record is the fields that it is written as: a field behind the first is one of the fields that follow. -/

theorem leNat_field (n v : Nat) (rest : List Byte) : leNat (leBytes n v ++ rest) 0 n = v % 256 ^ n := by
  rw [leNat_append_left (by rw [leBytes_length, Nat.zero_add]), leNat_leBytes]

theorem leNat_behind_field {m off : Nat} (h : m ≤ off) (v : Nat) (rest : List Byte) (n : Nat) :
    leNat (leBytes m v ++ rest) off n = leNat rest (off - m) n := by
  rw [leNat_append_right (by rwa [leBytes_length]), leBytes_length]

theorem leNat_behind_byte {off : Nat} (h : 1 ≤ off) (x : Byte) (rest : List Byte) (n : Nat) :
    leNat (x :: rest) off n = leNat rest (off - 1) n :=
  leNat_append_right (a := [x]) h n

theorem leNat_behind_zeros {m off : Nat} (h : m ≤ off) (rest : List Byte) (n : Nat) :
    leNat (zeros m ++ rest) off n = leNat rest (off - m) n := by
  rw [leNat_append_right (by simpa [zeros] using h)]
  simp [zeros]

theorem leNat_zeros (m off n : Nat) : leNat (zeros m) off n = 0 := by
  induction n generalizing off with
  | zero => rfl
  | succ n ih => simp [leNat, byteAt_zeros, ih]

theorem leNat_zeros_append {m off n : Nat} (h : off + n ≤ m) (rest : List Byte) : leNat (zeros m ++ rest) off n = 0 := by
  rw [leNat_append_left (by simpa [zeros] using h), leNat_zeros]

theorem byteAt_behind_field {m i : Nat} (h : m ≤ i) (v : Nat) (rest : List Byte) :
    byteAt (leBytes m v ++ rest) i = byteAt rest (i - m) := by
  rw [byteAt_append_right (by rwa [leBytes_length]), leBytes_length]

/-! ### Big-endian numbers -/

theorem beNat_append_singleton (bs : List Byte) (b : Byte) : beNat (bs ++ [b]) = 256 * beNat bs + b.toNat := by
  simp [beNat, List.foldl_append]

theorem beBytes_succ (n v : Nat) : beBytes (n + 1) v = beBytes n (v / 256) ++ [BitVec.ofNat 8 v] := by
  simp [beBytes, leBytes]

theorem beNat_beBytes (n v : Nat) : beNat (beBytes n v) = v % 256 ^ n := by
  induction n generalizing v with
  | zero => simp [beBytes, leBytes, beNat, Nat.mod_one]
  | succ n ih =>
    rw [beBytes_succ, beNat_append_singleton, ih, BitVec.toNat_ofNat, pow_succ' 256 n, Nat.mod_mul, Nat.add_comm]

theorem beNat_lt (bs : List Byte) : beNat bs < 256 ^ bs.length := by
  induction bs using List.reverseRecOn with
  | nil => simp [beNat]
  | append_singleton bs b ih =>
    have byte := b.isLt
    rw [beNat_append_singleton, List.length_append, List.length_singleton, Nat.pow_succ]
    omega

theorem beBytes_beNat (bs : List Byte) : beBytes bs.length (beNat bs) = bs := by
  induction bs using List.reverseRecOn with
  | nil => rfl
  | append_singleton bs b ih =>
    have byte := b.isLt
    have high : (256 * beNat bs + b.toNat) / 256 = beNat bs := by omega
    have low : BitVec.ofNat 8 (256 * beNat bs + b.toNat) = b := by
      apply BitVec.eq_of_toNat_eq
      rw [BitVec.toNat_ofNat]
      omega
    rw [List.length_append, List.length_singleton, beBytes_succ, beNat_append_singleton, high, low, ih]

/-! ### The scrambling chain -/

/-- A payload begins with a whole unit of 8 bytes or is a residue. -/
theorem unit_or_residue (bs : List Byte) :
    (∃ unit rest, bs = unit ++ rest ∧ unit.length = 8) ∨ bs.length < 8 := by
  by_cases h : bs.length < 8
  · exact .inr h
  · exact .inl ⟨bs.take 8, bs.drop 8, (List.take_append_drop 8 bs).symm, by simp; omega⟩

/-- R110: the chain over the first unit, and on with what it gives. -/
theorem chainUnits_unit (permute : Long → Long) (y : Long) {unit : List Byte} (h : unit.length = 8) (rest : List Byte) :
    chainUnits permute y (unit ++ rest) =
      beBytes 8 (permute (BitVec.ofNat 64 (beNat unit) ^^^ y)).toNat ++
        chainUnits permute (permute (BitVec.ofNat 64 (beNat unit) ^^^ y)) rest := by
  match unit, h with
  | [_, _, _, _, _, _, _, _], _ => rfl

theorem unchainUnits_unit (unpermute : Long → Long) (y : Long) {unit : List Byte} (h : unit.length = 8) (rest : List Byte) :
    unchainUnits unpermute y (unit ++ rest) =
      beBytes 8 (unpermute (BitVec.ofNat 64 (beNat unit)) ^^^ y).toNat ++
        unchainUnits unpermute (BitVec.ofNat 64 (beNat unit)) rest := by
  match unit, h with
  | [_, _, _, _, _, _, _, _], _ => rfl

theorem chainUnits_residue (permute : Long → Long) (y : Long) {bs : List Byte} (h : bs.length < 8) :
    chainUnits permute y bs = bs := by
  rw [chainUnits]
  rintro b0 b1 b2 b3 b4 b5 b6 b7 rest rfl
  simp only [List.length_cons] at h
  omega

theorem unchainUnits_residue (unpermute : Long → Long) (y : Long) {bs : List Byte} (h : bs.length < 8) :
    unchainUnits unpermute y bs = bs := by
  rw [unchainUnits]
  rintro b0 b1 b2 b3 b4 b5 b6 b7 rest rfl
  simp only [List.length_cons] at h
  omega

/-- R110: the chain of a payload, by its whole units. -/
theorem chainUnits_induction {motive : Long → List Byte → Prop}
    (residue : ∀ y bs, bs.length < 8 → motive y bs)
    (unit : ∀ y unit rest, unit.length = 8 → (∀ y', motive y' rest) → motive y (unit ++ rest)) (y : Long) (bs : List Byte) :
    motive y bs := by
  induction h : bs.length using Nat.strong_induction_on generalizing y bs with
  | _ n ih =>
    obtain ⟨first, rest, rfl, hfirst⟩ | short := unit_or_residue bs
    · refine unit y first rest hfirst fun y' => ih rest.length ?_ y' rest rfl
      rw [← h, List.length_append]
      omega
    · exact residue y bs short

theorem long_of_beBytes (x : Long) : BitVec.ofNat 64 (beNat (beBytes 8 x.toNat)) = x := by
  rw [beNat_beBytes, Nat.mod_eq_of_lt (show x.toNat < 256 ^ 8 from x.isLt), BitVec.ofNat_toNat, BitVec.setWidth_eq]

theorem beBytes_of_long {unit : List Byte} (h : unit.length = 8) : beBytes 8 (BitVec.ofNat 64 (beNat unit)).toNat = unit := by
  have bound := beNat_lt unit
  rw [h] at bound
  rw [BitVec.toNat_ofNat, Nat.mod_eq_of_lt (show beNat unit < 2 ^ 64 from bound), ← h, beBytes_beNat]

/-- Settles O24, by the whole units of the payload. -/
theorem receiverInvertsTheChain : Obligations.ReceiverInvertsTheChain := by
  intro permute seed payload
  refine ⟨?inverts, ?length, ?clear⟩
  case inverts =>
    induction seed, payload using chainUnits_induction with
    | residue y bs short => rw [chainUnits_residue permute y short, unchainUnits_residue _ y short]
    | unit y unit rest hu ih =>
      rw [chainUnits_unit permute y hu, unchainUnits_unit _ y (beBytes_length 8 _), long_of_beBytes, ih,
        Equiv.symm_apply_apply, BitVec.xor_assoc, BitVec.xor_self, BitVec.xor_zero, beBytes_of_long hu]
  case length =>
    induction seed, payload using chainUnits_induction with
    | residue y bs short => rw [chainUnits_residue permute y short]
    | unit y unit rest hu ih => rw [chainUnits_unit permute y hu, List.length_append, List.length_append, ih, beBytes_length, hu]
  case clear =>
    induction seed, payload using chainUnits_induction with
    | residue y bs short => rw [chainUnits_residue permute y short]
    | unit y unit rest hu ih =>
      have units : 8 * ((unit ++ rest).length / 8) = 8 + 8 * (rest.length / 8) := by
        rw [List.length_append, hu]
        omega
      have behind : ∀ (head tail : List Byte), head.length = 8 →
          (head ++ tail).drop (8 + 8 * (rest.length / 8)) = tail.drop (8 * (rest.length / 8)) := fun head tail h => by
        rw [List.drop_append, h, List.drop_eq_nil_of_le (by omega), List.nil_append, Nat.add_sub_cancel_left]
      rw [chainUnits_unit permute y hu, units, behind _ _ (beBytes_length 8 _), behind _ _ hu, ih]

/-! ### Payloads -/

theorem cutPayloads_of_le {fuel : Nat} : ∀ {bs : List Byte}, bs.length ≤ fuel → cutPayloads fuel bs = payloads bs := by
  induction fuel using Nat.strong_induction_on with
  | _ fuel ih =>
    intro bs h
    obtain rfl | nonempty := eq_or_ne bs []
    · cases fuel with
      | zero => rfl
      | succ fuel => rfl
    · obtain ⟨n, hn⟩ := Nat.exists_eq_succ_of_ne_zero (mt List.eq_nil_of_length_eq_zero nonempty)
      obtain ⟨m, rfl⟩ : ∃ m, fuel = m + 1 := ⟨fuel - 1, by omega⟩
      have shorter : (bs.drop Config.payloadBytes).length ≤ n := by
        rw [List.length_drop, Config.payloadBytes]
        omega
      rw [payloads, hn, cutPayloads, cutPayloads, if_neg nonempty, if_neg nonempty, ih m (by omega) (by omega)]
      obtain rfl | below := eq_or_ne m n
      · rw [ih m (by omega) shorter]
      · rw [ih n (by omega) shorter]

/-- R114: the first payload of a sequence, and those of the rest. -/
theorem payloads_of_ne_nil {bs : List Byte} (h : bs ≠ []) : payloads bs = bs.take 192 :: payloads (bs.drop 192) := by
  obtain ⟨n, hn⟩ := Nat.exists_eq_succ_of_ne_zero (mt List.eq_nil_of_length_eq_zero h)
  have shorter : (bs.drop 192).length ≤ n := by
    rw [List.length_drop]
    omega
  rw [payloads, hn, cutPayloads, if_neg h]
  exact congrArg _ (cutPayloads_of_le shorter)

/-- R114: a sequence of bytes, by its payloads. -/
theorem payloads_induction {motive : List Byte → Prop} (empty : motive [])
    (cut : ∀ bs, bs ≠ [] → motive (bs.drop 192) → motive bs) (bs : List Byte) : motive bs := by
  induction h : bs.length using Nat.strong_induction_on generalizing bs with
  | _ n ih =>
    obtain rfl | nonempty := eq_or_ne bs []
    · exact empty
    · have positive := List.length_pos_iff.mpr nonempty
      refine cut bs nonempty (ih _ ?_ _ rfl)
      rw [List.length_drop]
      omega

theorem payloads_flatten (bs : List Byte) : (payloads bs).flatten = bs := by
  induction bs using payloads_induction with
  | empty => rfl
  | cut bs h ih => rw [payloads_of_ne_nil h, List.flatten_cons, ih, List.take_append_drop]

theorem payloads_length (bs : List Byte) : (payloads bs).length = (bs.length + 191) / 192 := by
  induction bs using payloads_induction with
  | empty => rfl
  | cut bs h ih =>
    have positive := List.length_pos_iff.mpr h
    rw [payloads_of_ne_nil h, List.length_cons, ih, List.length_drop]
    omega

theorem payload_length {bs x : List Byte} (hx : x ∈ payloads bs) : 1 ≤ x.length ∧ x.length ≤ 192 := by
  induction bs using payloads_induction with
  | empty => cases hx
  | cut bs h ih =>
    have positive := List.length_pos_iff.mpr h
    rw [payloads_of_ne_nil h] at hx
    obtain rfl | hx := List.mem_cons.mp hx
    · rw [List.length_take]
      omega
    · exact ih hx

/-- R114: only the last payload may be shorter. -/
theorem payload_length_of_mem_dropLast {bs x : List Byte} (hx : x ∈ (payloads bs).dropLast) : x.length = 192 := by
  induction bs using payloads_induction with
  | empty => cases hx
  | cut bs h ih =>
    rw [payloads_of_ne_nil h] at hx
    obtain short | more := eq_or_ne (bs.drop 192) []
    · rw [short] at hx
      cases hx
    · have behind : payloads (bs.drop 192) ≠ [] := by rw [payloads_of_ne_nil more]; exact List.cons_ne_nil _ _
      have long : 192 < bs.length := by simpa using more
      rw [List.dropLast_cons_of_ne_nil behind] at hx
      obtain rfl | hx := List.mem_cons.mp hx
      · rw [List.length_take]
        omega
      · exact ih hx

/-! ### Cells -/

theorem pictureCells_getElem? (p : Program) (count : BitVec 4) (interval sequence : Word) (key : Option (Parity × Long)) :
    ∀ (xs : List (List Byte)) (j i : Nat), (pictureCells p count interval sequence key j xs)[i]? =
      xs[i]?.map (pictureCell p count interval sequence key (j + i))
  | [], _, _ => rfl
  | _ :: _, _, 0 => rfl
  | _ :: xs, j, i + 1 => by
    have rest := pictureCells_getElem? p count interval sequence key xs (j + 1) i
    rwa [Nat.add_assoc, Nat.add_comm 1] at rest

theorem sideCells_getElem? (p : Program) (count : BitVec 4) (interval : Word) (index : Nat) :
    ∀ (xs : List (List Byte)) (j i : Nat), (sideCells p count interval index j xs)[i]? =
      xs[i]?.map fun x => cellOf
        { kind := .side, start := j + i == 0, scramble := none, program := p, count := count + BitVec.ofNat 4 (j + i)
          used := x.length, interval := interval, sequence := BitVec.ofNat 16 index } x
  | [], _, _ => rfl
  | _ :: _, _, 0 => rfl
  | _ :: xs, j, i + 1 => by
    have rest := sideCells_getElem? p count interval index xs (j + 1) i
    rwa [Nat.add_assoc, Nat.add_comm 1] at rest

theorem pictureCells_length (p : Program) (count : BitVec 4) (interval sequence : Word) (key : Option (Parity × Long))
    (xs : List (List Byte)) (j : Nat) : (pictureCells p count interval sequence key j xs).length = xs.length := by
  induction xs generalizing j with
  | nil => rfl
  | cons x xs ih => exact congrArg (· + 1) (ih (j + 1))

theorem sideCells_length (p : Program) (count : BitVec 4) (interval : Word) (index : Nat) (xs : List (List Byte)) (j : Nat) :
    (sideCells p count interval index j xs).length = xs.length := by
  induction xs generalizing j with
  | nil => rfl
  | cons x xs ih => exact congrArg (· + 1) (ih (j + 1))

/-- Two bytes of a number, most significant first. -/
theorem beBytes_two (x : BitVec 16) : beBytes 2 x.toNat = [x.extractLsb' 8 8, x.extractLsb' 0 8] := by
  have high : BitVec.ofNat 8 (x.toNat / 256) = x.extractLsb' 8 8 := by
    apply BitVec.eq_of_toNat_eq
    rw [BitVec.toNat_ofNat, BitVec.extractLsb'_toNat, Nat.shiftRight_eq_div_pow]
  have low : BitVec.ofNat 8 x.toNat = x.extractLsb' 0 8 := by
    apply BitVec.eq_of_toNat_eq
    rw [BitVec.toNat_ofNat, BitVec.extractLsb'_toNat, Nat.shiftRight_zero]
  rw [← high, ← low]
  rfl

theorem beBytes_interval (x : Word) : beBytes 2 (x.toNat % 65536) = [x.extractLsb' 8 8, x.extractLsb' 0 8] := by
  have low : x.toNat % 65536 = (x.extractLsb' 0 16).toNat := by
    rw [BitVec.extractLsb'_toNat, Nat.shiftRight_zero]
  have bytes : ∀ start, start = 0 ∨ start = 8 → (x.extractLsb' 0 16).extractLsb' start 8 = x.extractLsb' start 8 := by
    intro start h
    apply BitVec.eq_of_toNat_eq
    simp only [BitVec.extractLsb'_toNat, Nat.shiftRight_eq_div_pow]
    obtain rfl | rfl := h
    · omega
    · omega
  rw [low, beBytes_two, bytes 8 (.inr rfl), bytes 0 (.inl rfl)]

/-- 11.3: the bytes of a header. -/
theorem headerBytes_eq (h : CellHeader) :
    headerBytes h =
      [0xA6, BitVec.ofNat 8 (cellKindCode h.kind * 64 + boolNat h.start * 32 + parityCode h.scramble)
       , BitVec.ofNat 8 (h.program.val * 16 + h.count.toNat), BitVec.ofNat 8 h.used, h.interval.extractLsb' 8 8
       , h.interval.extractLsb' 0 8, h.sequence.extractLsb' 8 8, h.sequence.extractLsb' 0 8] := by
  rw [headerBytes, beBytes_interval, beBytes_two]
  rfl

/-- R113: a payload filled up with 0x00. -/
theorem exactly_of_le {n : Nat} {bs : List Byte} (h : bs.length ≤ n) :
    exactly n bs = bs ++ List.replicate (n - bs.length) 0 := by
  rw [exactly, List.take_of_length_le h]
  rfl

theorem boolNat_start (n : Nat) : boolNat (n == 0) * 32 = if n = 0 then 32 else 0 := by
  by_cases h : n = 0
  · simp [boolNat, h]
  · simp [boolNat, h]

theorem chainUnits_length (permute : Equiv.Perm Long) (y : Long) (bs : List Byte) :
    (chainUnits permute y bs).length = bs.length :=
  (receiverInvertsTheChain permute y bs).2.1

/-- Settles O53. -/
theorem payloadsMakeUpTheSequence : Obligations.PayloadsMakeUpTheSequence := by
  intro bs
  refine ⟨payloads_flatten bs, payloads_length bs, fun x => payload_length, fun x => payload_length_of_mem_dropLast
    , fun p count interval sequence key index j => ?_⟩
  refine ⟨pictureCells_bytes p count interval sequence key _ j, sideCells_bytes p count interval index _ j
    , pictureCells_length .., sideCells_length .., fun i x hx => ?cells, fun low => ?hold, ?null⟩
  case cells =>
    have used := (payload_length (List.mem_of_getElem? hx)).2
    refine ⟨?clear, fun q word => ?scrambled, ?side⟩
    case clear =>
      rw [pictureCells_getElem?, hx]
      simp only [Option.map_some, pictureCell, cellOf, headerBytes_eq, exactly_of_le used, boolNat_start, Config.payloadBytes]
      simp [cellKindCode, parityCode]
    case scrambled =>
      have chained : ∀ y, (chainUnits (Config.cellPermutation word) y x).length ≤ 192 := fun y => by
        rwa [chainUnits_length]
      have parity : parityCode (some q) = if q = .even then 1 else 2 := by
        cases q with
        | even => rfl
        | odd => rfl
      rw [pictureCells_getElem?, hx]
      simp only [Option.map_some, pictureCell, cellOf, scramblePayload, headerBytes_eq, exactly_of_le (chained _),
        chainUnits_length, boolNat_start, Config.payloadBytes, parity]
      simp [cellKindCode]
    case side =>
      rw [sideCells_getElem?, hx]
      simp only [Option.map_some, cellOf, headerBytes_eq, exactly_of_le used, boolNat_start, Config.payloadBytes]
      simp [cellKindCode, parityCode]
  case hold =>
    rw [holdCell, holdPicture, beBytes_two, cellOf, headerBytes_eq, exactly_of_le (by simp [Config.payloadBytes])]
    simp [cellKindCode, parityCode, boolNat, Config.payloadBytes]
  case null =>
    rw [nullCell, cellOf, headerBytes_eq, exactly_of_le (Nat.zero_le _)]
    simp [cellKindCode, parityCode, boolNat, Config.payloadBytes]

end Sys2Proof.Machine

/-! PROOFS. The fault record: its bytes and the end of its write (O55). -/

namespace Sys2Proof.Machine

/-! ### The bytes of a fault record -/

/-- R167: the fields of a fault record behind each other. -/
theorem faultRecordBytes_eq (r : FaultRequest) :
    faultRecordBytes r = exactly 64
      (leBytes 1 (causeCode r.info.cause) ++ (leBytes 1 (accessResultCode r.info.result) ++
        (leBytes 1 (accessKindCode r.info.kind) ++ (r.info.region :: (leBytes 4 r.interval.toNat ++
        (leBytes 8 r.info.record.toNat ++ (leBytes 8 r.info.addr.toNat ++ (leBytes 4 r.info.length ++
        (leBytes 4 r.info.sequence.toNat ++ (leBytes 1 r.info.pass ++ (leBytes 1 r.count ++ (zeros 2 ++
        (leBytes 4 (r.sequences.getD 0 0).toNat ++ (leBytes 4 (r.sequences.getD 1 0).toNat ++
        (leBytes 4 (r.sequences.getD 2 0).toNat ++ (leBytes 4 (r.sequences.getD 3 0).toNat ++ [])))))))))))))))) := by
  simp [faultRecordBytes, List.range_succ]

theorem word_mod (x : Word) : x.toNat % 256 ^ 4 = x.toNat := Nat.mod_eq_of_lt x.isLt

theorem long_mod (x : Long) : x.toNat % 256 ^ 8 = x.toNat := Nat.mod_eq_of_lt x.isLt

section
variable (r : FaultRequest)

theorem faultRecordBytes_cause : leNat (faultRecordBytes r) 0x00 1 = causeCode r.info.cause := by
  rw [faultRecordBytes_eq, leNat_exactly (by decide), leNat_field]
  cases r.info.cause <;> rfl

theorem faultRecordBytes_result : leNat (faultRecordBytes r) 0x01 1 = accessResultCode r.info.result := by
  have code : accessResultCode r.info.result < 256 := by
    unfold accessResultCode
    split <;> decide
  rw [faultRecordBytes_eq, leNat_exactly (by decide)]
  simp only [leNat_behind_field, Nat.le_refl, leNat_field, Nat.reduceSub]
  exact Nat.mod_eq_of_lt code

theorem faultRecordBytes_kind : leNat (faultRecordBytes r) 0x02 1 = accessKindCode r.info.kind := by
  rw [faultRecordBytes_eq, leNat_exactly (by decide)]
  simp only [leNat_behind_field, Nat.reduceLeDiff, leNat_field, Nat.reduceSub]
  cases r.info.kind <;> rfl

theorem faultRecordBytes_region : byteAt (faultRecordBytes r) 0x03 = r.info.region := by
  rw [faultRecordBytes_eq, byteAt_exactly (by decide)]
  simp only [byteAt_behind_field, Nat.reduceLeDiff, Nat.reduceSub]
  rfl

theorem faultRecordBytes_sequences {i : Nat} (hi : i < 4) :
    leNat (faultRecordBytes r) (0x24 + 4 * i) 4 = (r.sequences[i]?.map BitVec.toNat).getD 0 := by
  have value : (r.sequences[i]?.map BitVec.toNat).getD 0 = (r.sequences.getD i 0).toNat := by
    cases h : r.sequences[i]? with
    | none => simp [h]
    | some x => simp [h]
  rw [value, faultRecordBytes_eq, leNat_exactly (by omega)]
  interval_cases i
  · simp only [Nat.reduceMul, Nat.reduceAdd, Nat.reduceLeDiff, Nat.reduceSub, leNat_behind_field, leNat_behind_byte,
      leNat_behind_zeros, leNat_field, word_mod]
  · simp only [Nat.reduceMul, Nat.reduceAdd, Nat.reduceLeDiff, Nat.reduceSub, leNat_behind_field, leNat_behind_byte,
      leNat_behind_zeros, leNat_field, word_mod]
  · simp only [Nat.reduceMul, Nat.reduceAdd, Nat.reduceLeDiff, Nat.reduceSub, leNat_behind_field, leNat_behind_byte,
      leNat_behind_zeros, leNat_field, word_mod]
  · simp only [Nat.reduceMul, Nat.reduceAdd, Nat.reduceLeDiff, Nat.reduceSub, leNat_behind_field, leNat_behind_byte,
      leNat_behind_zeros, leNat_field, word_mod]

/-- R167: the numbers of a fault record stand at their offsets. -/
theorem faultRecordBytes_numbers :
    leNat (faultRecordBytes r) 0x04 4 = r.interval.toNat ∧ leNat (faultRecordBytes r) 0x08 8 = r.info.record.toNat ∧
      leNat (faultRecordBytes r) 0x10 8 = r.info.addr.toNat ∧
      leNat (faultRecordBytes r) 0x18 4 = r.info.length % 4294967296 ∧
      leNat (faultRecordBytes r) 0x1C 4 = r.info.sequence.toNat ∧ leNat (faultRecordBytes r) 0x20 1 = r.info.pass % 256 ∧
      leNat (faultRecordBytes r) 0x21 1 = r.count % 256 ∧ leNat (faultRecordBytes r) 0x22 2 = 0 := by
  have size : (4294967296 : Nat) = 256 ^ 4 := rfl
  rw [faultRecordBytes_eq, leNat_exactly (by decide), leNat_exactly (by decide), leNat_exactly (by decide),
    leNat_exactly (by decide), leNat_exactly (by decide), leNat_exactly (by decide), leNat_exactly (by decide),
    leNat_exactly (by decide), size]
  simp only [Nat.reduceLeDiff, Nat.reduceSub, leNat_behind_field, leNat_behind_byte, leNat_field, word_mod, long_mod,
    Nat.pow_one, leNat_zeros_append, Nat.reduceAdd, and_self]

/-- R167: behind the sequences a fault record is 0. -/
theorem faultRecordBytes_tail {i : Nat} (hi : 0x34 ≤ i) : byteAt (faultRecordBytes r) i = 0 := by
  by_cases inside : i < 64
  · rw [faultRecordBytes_eq, byteAt_exactly inside]
    refine byteAt_of_length_le ?_
    simp only [List.length_append, leBytes_length, List.length_cons, List.length_nil, zeros, List.length_replicate]
    omega
  · exact byteAt_of_length_le (by rw [faultRecordBytes_length]; omega)

end

/-! ### The end of a fault record's write -/

section
variable {s : State}

/-- R166, R168: the write of the request at the head of the queue. -/
theorem State.startFaultWrite_of_ok {r : FaultRequest} {rest : List FaultRequest} {region : Byte}
    (h : s.reporter.faultQueue = r :: rest)
    (passes : checkAccess s.link.regions
      { agent := .faultRecord, kind := .write, addr := r.area, length := 64, key := some r.key
        data := faultRecordBytes r } = .ok region) :
    s.startFaultWrite = { s with
      reporter := { s.reporter with faultWrite := some .waiting }
      link := { s.link with
        accesses := s.link.accesses ++
          [{ tag := s.link.nextTag, agent := .faultRecord, kind := .write, addr := r.area, length := 64
             key := some r.key, region := region, data := faultRecordBytes r }]
        nextTag := s.link.nextTag + 1 } } := by
  rw [State.startFaultWrite, h]
  simp only [writeRequest_fault, State.issue_of_ok passes]
  rfl

theorem State.startFaultWrite_of_error {r : FaultRequest} {rest : List FaultRequest} {e : AccessResult × Byte}
    (h : s.reporter.faultQueue = r :: rest)
    (refused : checkAccess s.link.regions
      { agent := .faultRecord, kind := .write, addr := r.area, length := 64, key := some r.key
        data := faultRecordBytes r } = .error e) :
    s.startFaultWrite = s.setReporter { s.reporter with faultWrite := some (.ended false) } := by
  rw [State.startFaultWrite, h]
  simp only [writeRequest_fault, State.issue_of_error refused]

/-- R166: the notes that the end of a write leaves, where it did not succeed. -/
def State.lostNotes (s : State) (p : Program) (written : Bool) : PerProgram Notes :=
  if written then s.controller.notes else s.controller.notes.modify p fun n => { n with faultRecordLost := true }

theorem State.lostNotes_look (p q : Program) (written : Bool) :
    ((s.lostNotes p written).look q).faultRecordLost =
      ((s.controller.notes.look q).faultRecordLost || (q == p && !written)) := by
  cases written with
  | true => simp [State.lostNotes]
  | false =>
    obtain rfl | ne := eq_or_ne q p
    · simp [State.lostNotes]
    · simp [State.lostNotes, PerProgram.look_modify_ne _ ne, ne]

/-- R166: what the end of the write at the head of the queue leaves, before the next request's write begins. -/
def State.recordEnded (s : State) (r : FaultRequest) (rest : List FaultRequest) (written : Bool) : State :=
  { s with
    control := { s.control with
      events := s.control.events ||| 8, line := ((s.control.events ||| 8) &&& s.control.enable) != 0 }
    controller := { s.controller with notes := s.lostNotes r.program written }
    reporter := { s.reporter with faultQueue := rest, faultWrite := none } }

/-- R166: the request of the write that ended is gone, and the next one's write begins. -/
theorem exec_faultRecordWriteEnd {written : Bool} {r : FaultRequest} {rest : List FaultRequest}
    (ended : s.reporter.faultWrite = some (.ended written)) (queue : s.reporter.faultQueue = r :: rest) :
    exec .faultRecordWriteEnd s = .next (s.recordEnded r rest written).startFaultWrite := by
  change execFaultRecordWriteEnd s = _
  simp only [execFaultRecordWriteEnd, ended, queue]
  cases written with
  | true => rfl
  | false => rfl

end

/-- Settles O55. -/
theorem faultRecordWriteEndRaisesProgramHeld : Obligations.FaultRecordWriteEndRaisesProgramHeld := by
  refine ⟨fun r => ?bytes, by decide, by decide, by decide, fun s written r rest ended queue => ?ends⟩
  case bytes =>
    obtain ⟨interval, record, addr, length, sequence, pass, count, reserved⟩ := faultRecordBytes_numbers r
    exact ⟨faultRecordBytes_length r, faultRecordBytes_cause r, faultRecordBytes_result r, faultRecordBytes_kind r
      , faultRecordBytes_region r, interval, record, addr, length, sequence, pass, count, reserved
      , fun i => faultRecordBytes_sequences r, fun i => faultRecordBytes_tail r⟩
  case ends =>
    obtain ⟨l, w, started, -, none_iff, -, quiet⟩ := (s.recordEnded r rest written).startFaultWrite_cases
    refine ⟨_, exec_faultRecordWriteEnd ended queue, ?_⟩
    refine ⟨by rw [started]; rfl, by rw [started]; exact none_iff, by rw [started]; rfl
      , fun p => by rw [started]; exact State.lostNotes_look r.program p written, fun p => by rw [started]; rfl
      , fun h => by rw [started]; exact quiet h, ?next, by rw [started]; rfl⟩
    case next =>
      rintro r' rest' rfl
      refine ⟨faultRecordBytes_length r', fun region passes => ?_, fun e refused => ?_⟩
      · rw [State.startFaultWrite_of_ok (s := s.recordEnded r (r' :: rest') written) rfl passes]
        exact ⟨rfl, rfl⟩
      · rw [State.startFaultWrite_of_error (s := s.recordEnded r (r' :: rest') written) rfl refused]
        exact ⟨rfl, rfl⟩

end Sys2Proof.Machine

/-! PROOFS. The parse of a slice (O49): the format and the parse agree. -/

namespace Sys2Proof.Machine

/-! ### What the format writes -/

/-- 2.2: the three bytes of an entry. -/
def entryBytes (e : Coeff) : List Byte :=
  [BitVec.ofNat 8 e.1, (BitVec.ofInt 16 e.2).extractLsb' 0 8, (BitVec.ofInt 16 e.2).extractLsb' 8 8]

/-- 2.2: the bytes of a block. -/
def blockBytes (b : List Coeff) : List Byte := BitVec.ofNat 8 b.length :: b.flatMap entryBytes

/-- 2.2: the bytes of a slice. -/
def sliceBytes (d : SliceDesc) (blocks : List (List Coeff)) : List Byte :=
  ([0xE1, BitVec.ofNat 8 d.qIn, BitVec.ofNat 8 blocks.length, 0] : List Byte) ++ blocks.flatMap blockBytes

/-- R27: an entry within its bounds. -/
def EntryFits (e : Coeff) : Prop := e.1 ≤ 63 ∧ 1 ≤ e.2.natAbs ∧ e.2.natAbs ≤ 2047

/-- R27: a block within its bounds. -/
def BlockFits (b : List Coeff) : Prop :=
  b.length ≤ 64 ∧ (b.map Prod.fst).Pairwise (· < ·) ∧ ∀ e ∈ b, EntryFits e

/-- R26, R27: blocks of a slice within their bounds. -/
def SliceFits (d : SliceDesc) (blocks : List (List Coeff)) : Prop :=
  4 + (blocks.map fun b => 1 + 3 * b.length).sum = d.length ∧ 1 ≤ blocks.length ∧ blocks.length ≤ 255 ∧
    ∀ b ∈ blocks, BlockFits b

theorem entries_length (b : List Coeff) : (b.flatMap entryBytes).length = 3 * b.length := by
  induction b with
  | nil => rfl
  | cons e b ih =>
    rw [List.flatMap_cons, List.length_append, ih, List.length_cons]
    change 3 + _ = _
    omega

theorem blocks_length (blocks : List (List Coeff)) :
    (blocks.flatMap blockBytes).length = (blocks.map fun b => 1 + 3 * b.length).sum := by
  induction blocks with
  | nil => rfl
  | cons b blocks ih =>
    rw [List.flatMap_cons, List.length_append, ih, blockBytes, List.length_cons, entries_length, List.map_cons, List.sum_cons]
    omega

theorem sliceBytes_length (d : SliceDesc) (blocks : List (List Coeff)) :
    (sliceBytes d blocks).length = 4 + (blocks.map fun b => 1 + 3 * b.length).sum := by
  rw [sliceBytes, List.length_append, blocks_length]
  rfl

/-! ### Levels -/

theorem level_of_bytes (x : BitVec 16) :
    BitVec.ofNat 16 ((x.extractLsb' 0 8).toNat + 256 * (x.extractLsb' 8 8).toNat) = x := by
  have bound := x.isLt
  apply BitVec.eq_of_toNat_eq
  rw [BitVec.toNat_ofNat, BitVec.extractLsb'_toNat, BitVec.extractLsb'_toNat, Nat.shiftRight_zero, Nat.shiftRight_eq_div_pow]
  omega

theorem bytes_of_level (l0 l1 : Byte) :
    (BitVec.ofNat 16 (l0.toNat + 256 * l1.toNat)).extractLsb' 0 8 = l0 ∧
      (BitVec.ofNat 16 (l0.toNat + 256 * l1.toNat)).extractLsb' 8 8 = l1 := by
  have low := l0.isLt
  have high := l1.isLt
  refine ⟨?_, ?_⟩
  · apply BitVec.eq_of_toNat_eq
    rw [BitVec.extractLsb'_toNat, BitVec.toNat_ofNat, Nat.shiftRight_zero]
    omega
  · apply BitVec.eq_of_toNat_eq
    rw [BitVec.extractLsb'_toNat, BitVec.toNat_ofNat, Nat.shiftRight_eq_div_pow]
    omega

theorem toInt_ofInt_level {level : Int} (h : level.natAbs ≤ 2047) : (BitVec.ofInt 16 level).toInt = level := by
  rw [BitVec.toInt_ofInt]
  exact Int.bmod_eq_of_le (by omega) (by omega)

/-! ### What is written parses -/

/-- R27: the position of an entry is above the one before it. -/
def RisesAbove (prev : Option Nat) (position : Nat) : Prop := ∀ q, prev = some q → q < position

theorem parseEntries_cons {prev : Option Nat} {e : Coeff} (fits : EntryFits e) (rises : RisesAbove prev e.1) (n : Nat)
    (rest : List Byte) :
    parseEntries (n + 1) prev (entryBytes e ++ rest) =
      (parseEntries n (some e.1) rest).map fun x => (e :: x.1, x.2) := by
  obtain ⟨hp, low, high⟩ := fits
  have position : (BitVec.ofNat 8 e.1).toNat = e.1 := by
    rw [BitVec.toNat_ofNat]
    omega
  have above : (prev.any fun q => decide (e.1 ≤ q)) = false := by
    cases prev with
    | none => rfl
    | some q => simpa using rises q rfl
  have bounds : ¬ (63 < e.1 ∨ (prev.any fun q => decide (e.1 ≤ q)) = true ∨ e.2 = 0 ∨ 2047 < e.2.natAbs) := by
    rw [above]
    simp only [Bool.false_eq_true, false_or, not_or]
    omega
  change parseEntries (n + 1) prev (BitVec.ofNat 8 e.1 :: (BitVec.ofInt 16 e.2).extractLsb' 0 8 ::
    (BitVec.ofInt 16 e.2).extractLsb' 8 8 :: rest) = _
  rw [parseEntries]
  simp only [position, level_of_bytes, toInt_ofInt_level high, if_neg bounds]
  cases parseEntries n (some e.1) rest with
  | none => rfl
  | some x => rfl

theorem parseEntries_written (rest : List Byte) :
    ∀ {b : List Coeff} {prev : Option Nat}, (∀ e ∈ b, EntryFits e) → (b.map Prod.fst).Pairwise (· < ·) →
      (∀ e ∈ b, RisesAbove prev e.1) → parseEntries b.length prev (b.flatMap entryBytes ++ rest) = some (b, rest)
  | [], _, _, _, _ => rfl
  | e :: b, prev, fits, rising, above => by
    rw [List.map_cons, List.pairwise_cons] at rising
    have behind : ∀ x ∈ b, RisesAbove (some e.1) x.1 := fun x hx q hq => by
      cases hq
      exact rising.1 x.1 (List.mem_map_of_mem hx)
    rw [List.flatMap_cons, List.append_assoc, List.length_cons,
      parseEntries_cons (fits e List.mem_cons_self) (above e List.mem_cons_self),
      parseEntries_written rest (fun x hx => fits x (List.mem_cons_of_mem _ hx)) rising.2 behind]
    rfl

theorem parseBlocks_written (rest : List Byte) :
    ∀ {blocks : List (List Coeff)}, (∀ b ∈ blocks, BlockFits b) →
      parseBlocks blocks.length (blocks.flatMap blockBytes ++ rest) = some (blocks, rest)
  | [], _ => rfl
  | b :: blocks, fits => by
    obtain ⟨short, rising, entries⟩ := fits b List.mem_cons_self
    have count : (BitVec.ofNat 8 b.length).toNat = b.length := by
      rw [BitVec.toNat_ofNat]
      omega
    rw [List.flatMap_cons, List.append_assoc, List.length_cons, blockBytes, List.cons_append, parseBlocks, count,
      if_neg (by omega), parseEntries_written _ entries rising fun x hx q hq => by cases hq]
    simp only
    rw [parseBlocks_written rest fun x hx => fits x (List.mem_cons_of_mem _ hx)]

theorem parseSlice_written {d : SliceDesc} {blocks : List (List Coeff)} (q : d.qIn ≤ 255) (fits : SliceFits d blocks) :
    parseSlice d (sliceBytes d blocks) = some blocks := by
  obtain ⟨length, some_block, few, blocksFit⟩ := fits
  have whole : exactly d.length (sliceBytes d blocks) = sliceBytes d blocks :=
    exactly_of_length (by rw [sliceBytes_length, length])
  have count : (BitVec.ofNat 8 blocks.length).toNat = blocks.length := by
    rw [BitVec.toNat_ofNat]
    omega
  have nonzero : BitVec.ofNat 8 blocks.length ≠ 0 := fun h => by
    have zero : blocks.length = 0 := count.symm.trans (congrArg BitVec.toNat h)
    omega
  have quantizer : (BitVec.ofNat 8 d.qIn).toNat = d.qIn := by
    rw [BitVec.toNat_ofNat]
    omega
  have parsed := parseBlocks_written [] blocksFit
  rw [List.append_nil] at parsed
  rw [parseSlice, whole, sliceBytes]
  simp only [List.cons_append, List.nil_append]
  rw [if_pos ⟨trivial, quantizer, nonzero, trivial⟩, count, parsed]

/-! ### What parses is written so -/

theorem parseEntries_some :
    ∀ {n : Nat} {prev : Option Nat} {bs rest : List Byte} {b : List Coeff}, parseEntries n prev bs = some (b, rest) →
      b.length = n ∧ bs = b.flatMap entryBytes ++ rest ∧ (∀ e ∈ b, EntryFits e) ∧ (b.map Prod.fst).Pairwise (· < ·) ∧
        ∀ e ∈ b, RisesAbove prev e.1
  | 0, _, bs, rest, b, h => by
    obtain ⟨rfl, rfl⟩ : [] = b ∧ bs = rest := by simpa [parseEntries] using h
    simp
  | n + 1, prev, [], _, _, h | n + 1, prev, [_], _, _, h | n + 1, prev, [_, _], _, _, h => by simp [parseEntries] at h
  | n + 1, prev, p :: l0 :: l1 :: bs, rest, b, h => by
    rw [parseEntries] at h
    split at h
    case isTrue => cases h
    case isFalse bounds =>
      simp only [not_or, not_lt, Bool.not_eq_true] at bounds
      obtain ⟨hp, above, nonzero, high⟩ := bounds
      split at h
      case h_1 => cases h
      case h_2 entries behind parsed =>
        cases h
        obtain ⟨length, bytes, fits, rising, first⟩ := parseEntries_some parsed
        obtain ⟨low0, low1⟩ := bytes_of_level l0 l1
        have head : RisesAbove prev p.toNat := fun q hq => by
          rw [hq] at above
          simpa using above
        refine ⟨by rw [List.length_cons, length], ?bytes, ?fits, ?rising, ?above⟩
        case bytes =>
          rw [List.flatMap_cons, bytes, entryBytes]
          simp [BitVec.ofInt_toInt, low0, low1]
        case fits =>
          intro e he
          obtain rfl | he := List.mem_cons.mp he
          · exact ⟨hp, Int.natAbs_pos.mpr nonzero, high⟩
          · exact fits e he
        case rising =>
          rw [List.map_cons, List.pairwise_cons]
          refine ⟨fun x hx => ?_, rising⟩
          obtain ⟨e, he, rfl⟩ := List.mem_map.mp hx
          exact first e he p.toNat rfl
        case above =>
          intro e he
          obtain rfl | he := List.mem_cons.mp he
          · exact head
          · exact fun q hq => (head q hq).trans (first e he p.toNat rfl)

theorem parseBlocks_some :
    ∀ {n : Nat} {bs rest : List Byte} {blocks : List (List Coeff)}, parseBlocks n bs = some (blocks, rest) →
      blocks.length = n ∧ bs = blocks.flatMap blockBytes ++ rest ∧ ∀ b ∈ blocks, BlockFits b
  | 0, bs, rest, blocks, h => by
    obtain ⟨rfl, rfl⟩ : [] = blocks ∧ bs = rest := by simpa [parseBlocks] using h
    simp
  | n + 1, [], _, _, h => by simp [parseBlocks] at h
  | n + 1, c :: bs, rest, blocks, h => by
    rw [parseBlocks] at h
    split at h
    case isTrue => cases h
    case isFalse short =>
      split at h
      case h_1 => cases h
      case h_2 entries behind parsed =>
        split at h
        case h_1 => cases h
        case h_2 others last parsedRest =>
          cases h
          obtain ⟨count, bytes, fits, rising, -⟩ := parseEntries_some parsed
          obtain ⟨length, rest_bytes, rest_fits⟩ := parseBlocks_some parsedRest
          refine ⟨by rw [List.length_cons, length], ?_, fun b hb => ?_⟩
          · rw [List.flatMap_cons, bytes, rest_bytes, blockBytes, count]
            simp
          · obtain rfl | hb := List.mem_cons.mp hb
            · exact ⟨by omega, rising, fits⟩
            · exact rest_fits b hb

/-- R26, R27: what parses is a slice as the format writes it, within its bounds. -/
theorem parseSlice_some {d : SliceDesc} {data : List Byte} {blocks : List (List Coeff)} (h : parseSlice d data = some blocks) :
    exactly d.length data = sliceBytes d blocks ∧ SliceFits d blocks ∧ d.qIn ≤ 255 := by
  rw [parseSlice] at h
  split at h
  case h_2 => cases h
  case h_1 marker q count zero body whole =>
    split at h
    case isFalse => cases h
    case isTrue header =>
      obtain ⟨rfl, hq, nonzero, rfl⟩ := header
      split at h
      case h_2 => cases h
      case h_1 blocks' parsed =>
        cases h
        obtain ⟨length, bytes, fits⟩ := parseBlocks_some parsed
        have written : exactly d.length data = sliceBytes d blocks := by
          rw [whole, bytes, sliceBytes, length, ← hq]
          simp
        have total := congrArg List.length written
        rw [exactly_length, sliceBytes_length] at total
        have positive : 1 ≤ count.toNat :=
          Nat.one_le_iff_ne_zero.mpr fun h => nonzero (BitVec.eq_of_toNat_eq (by simpa using h))
        exact ⟨written, ⟨total.symm, by omega, by have := count.isLt; omega, fits⟩, by have := q.isLt; omega⟩

/-- Settles O49. -/
theorem parsedSlicesAreWellFormed : Obligations.ParsedSlicesAreWellFormed := by
  refine ⟨fun d blocks q fits => parseSlice_written q fits, fun d data blocks length h => ?parsed
    , fun d data length malformed => ?malformed, fun d data blocks h => (parseSlice_some h).2.1⟩
  case parsed =>
    obtain ⟨written, fits, -⟩ := parseSlice_some h
    exact ⟨fits, (exactly_of_length length.symm).symm.trans written⟩
  case malformed =>
    cases h : parseSlice d data with
    | none => rfl
    | some blocks =>
      obtain ⟨written, ⟨total, some_block, few, -⟩, q⟩ := parseSlice_some h
      rw [exactly_of_length length.symm] at written
      subst written
      have count : BitVec.ofNat 8 blocks.length ≠ 0 := fun zero => by
        have none : blocks.length % 256 = 0 := (BitVec.toNat_ofNat ..).symm.trans (congrArg BitVec.toNat zero)
        omega
      obtain short | marker | other | empty | fourth := malformed
      · rw [sliceBytes_length] at short
        omega
      · exact absurd rfl marker
      · refine absurd ?_ other
        rw [leNat_one]
        change (BitVec.ofNat 8 d.qIn).toNat = _
        rw [BitVec.toNat_ofNat]
        omega
      · exact absurd empty count
      · exact absurd rfl fourth

end Sys2Proof.Machine

/-! PROOFS. The classification of a take's side entries (07, 7.1 and 7.2). -/

namespace Sys2Proof.Machine

/-! ### The address rule and the entry check -/

theorem FilterTable.accepts_directed (t : FilterTable) (owner : Program) {e : SideEntry} (h : e.target ≤ 15) :
    t.accepts owner e = true ↔ e.target = owner.val := by
  simp [FilterTable.accepts, h]

theorem FilterTable.accepts_broadcast (t : FilterTable) (owner : Program) {e : SideEntry} (h : e.target = 0xFF) :
    t.accepts owner e = t.broadcast := by
  simp [FilterTable.accepts, h]

theorem FilterTable.accepts_group (t : FilterTable) (owner : Program) {e : SideEntry} (h : e.target = 0xFE) :
    t.accepts owner e = t.groups.getLsbD (e.group % 64) := by
  simp [FilterTable.accepts, h]

theorem SideEntry.valid_iff (e : SideEntry) :
    e.valid = true ↔ 1 ≤ e.length ∧ e.length ≤ 1024 ∧ (e.target ≤ 15 ∨ e.target = 0xFE ∨ e.target = 0xFF) := by
  simp only [SideEntry.valid, Bool.and_eq_true, decide_eq_true_eq, and_assoc]

theorem classifyEarly_of_invalid {e : SideEntry} (h : ¬ e.valid = true) (t : FilterTable) (owner : Program) :
    classifyEarly false (some t) owner e = some .droppedAddress := by
  simp [classifyEarly, h]

theorem classifyEarly_of_not_accepted {t : FilterTable} {owner : Program} {e : SideEntry} (h : t.accepts owner e = false) :
    classifyEarly false (some t) owner e = some .droppedAddress := by
  by_cases valid : e.valid = true
  · simp [classifyEarly, valid, h]
  · exact classifyEarly_of_invalid valid t owner

theorem classifyEarly_of_accepted {t : FilterTable} {owner : Program} {e : SideEntry} (valid : e.valid = true)
    (h : t.accepts owner e = true) :
    classifyEarly false (some t) owner e = if t.filters.any Filter.enabled then none else some t.defaultDisposition := by
  simp [classifyEarly, valid, h]

/-! ### The flexible filters -/

theorem Filter.matchesHead_iff (f : Filter) (length : Nat) (head : List Byte) :
    f.matchesHead length head = true ↔ f.enabled = true ∧ f.compare ≤ length ∧
      ∀ i < f.compare, f.mask.getLsbD i = true → byteAt head i = byteAt f.pattern i := by
  simp only [Filter.matchesHead, Bool.and_eq_true, decide_eq_true_eq, List.all_eq_true, List.mem_range, Bool.or_eq_true,
    Bool.not_eq_true', beq_iff_eq, and_assoc, ← Bool.not_eq_true, imp_iff_not_or]

/-- R133: the first filter that matches a head decides. -/
theorem classifyHead_of_match {t : FilterTable} {e : SideEntry} {head : List Byte} {before after : List Filter} {f : Filter}
    (split : t.filters = before ++ f :: after) (earlier : ∀ g ∈ before, ¬ g.matchesHead e.length head = true)
    (first : f.matchesHead e.length head = true) : classifyHead false (some t) e head = f.action.disposition := by
  have none_before : before.find? (fun g => g.matchesHead e.length head) = none := List.find?_eq_none.2 earlier
  simp [classifyHead, FilterTable.filtered, split, List.find?_append, none_before, first]

theorem classifyHead_of_no_match {t : FilterTable} {e : SideEntry} {head : List Byte}
    (none_matches : ∀ f ∈ t.filters, ¬ f.matchesHead e.length head = true) :
    classifyHead false (some t) e head = t.defaultDisposition := by
  have none_found : t.filters.find? (fun f => f.matchesHead e.length head) = none := List.find?_eq_none.2 none_matches
  simp [classifyHead, FilterTable.filtered, none_found]

/-! ### The steps of the classification at intake -/

theorem State.classify_nil (p : Program) (rf : RecordFields) (slices : List SliceDesc) (done : List SlotSide) (s : State) :
    State.classify p rf slices done [] s = s.takenWrite p rf slices done := by
  rw [State.classify]

theorem State.classify_decided {s : State} {p : Program} {e : SideEntry} {d : Disposition}
    (h : classifyEarly s.loading s.side.table p e = some d) (rf : RecordFields) (slices : List SliceDesc)
    (done : List SlotSide) (rest : List SideEntry) :
    State.classify p rf slices done (e :: rest) s =
      State.classify p rf slices (done ++ [e.classified d]) rest (s.cueMatched p d) := by
  simp only [State.classify, h]

theorem State.classify_reads {s : State} {p : Program} {e : SideEntry}
    (h : classifyEarly s.loading s.side.table p e = none) (rf : RecordFields) (slices : List SliceDesc)
    (done : List SlotSide) (rest : List SideEntry) :
    State.classify p rf slices done (e :: rest) s =
      (s.atPhase (.headRead rf slices done e rest)).issue
        (readRequest .intake (some (s.ctx p).fixed.accessKey) e.address e.headLength) := by
  simp only [State.classify, h]

theorem State.takeEnds_eq {s : State} {i : Intake} (h : s.controller.intake = some i) (p : Program) :
    s.takeEnds p = (i.halted || decide ((s.ctx p).state = .held)) := by
  simp only [State.takeEnds, h, Option.any_some]

/-- A take in an intake that HALT has not ended, of a program that is not HELD, goes on. -/
theorem State.takeOn_of_open {s : State} {i : Intake} {p : Program} (h : s.controller.intake = some i)
    (halted : i.halted = false) (held : (s.ctx p).state ≠ .held) (next : State → Cont) : s.takeOn p next = next s := by
  simp [State.takeOn, State.takeEnds_eq h, halted, held]

/-- A take that HALT or the holding fault of a report overtook ends. -/
theorem State.takeOn_of_stopped {s : State} {i : Intake} {p : Program} (h : s.controller.intake = some i)
    (stopped : i.halted = true ∨ (s.ctx p).state = .held) (next : State → Cont) : s.takeOn p next = s.nextProgram := by
  have ends : s.takeEnds p = true := by
    rw [State.takeEnds_eq h]
    obtain halted | held := stopped
    · rw [halted, Bool.true_or]
    · rw [decide_eq_true held, Bool.or_true]
  rw [State.takeOn, if_pos ends]

section Phase

variable {s : State} {i : Intake} {p : Program} (h : s.controller.intake = some i) (program : i.program = p)

include h program

theorem State.intakeStep_headRead {rf : RecordFields} {slices : List SliceDesc} {done : List SlotSide} {e : SideEntry}
    {rest : List SideEntry} (phase : i.phase = .headRead rf slices done e rest) (r : Reply) :
    s.intakeStep r = s.headReply p rf slices done e rest r := by
  simp only [State.intakeStep, h, phase, program]

end Phase

theorem State.atPhase_of_intake {s : State} {i : Intake} (h : s.controller.intake = some i) (phase : IntakePhase) :
    s.atPhase phase = { s with controller := { s.controller with intake := some { i with phase := phase } } } := by
  simp only [State.atPhase, h, Option.map_some]
  rfl

theorem State.issueRecord_zero (s : State) (agent : Agent) (p : Program) (record : Long) (data : List Byte) :
    s.issueRecord agent p record 0 data =
      s.issue (writeRequest agent (some (s.ctx p).fixed.accessKey) record data) := by
  rw [State.issueRecord]
  congr 2
  exact BitVec.add_zero record

theorem State.takenWrite_of_intake {s : State} {i : Intake} (h : s.controller.intake = some i) (p : Program)
    (rf : RecordFields) (slices : List SliceDesc) (sides : List SlotSide) :
    s.takenWrite p rf slices sides =
      ({ s with controller := { s.controller with
        intake := some { i with
          phase := .taken (slotOf ((s.ctx p).takeNumber + 1) (s.ctx p).nextRecord rf slices sides) rf.link } } } : State).issue
        (writeRequest .intake (some (s.ctx p).fixed.accessKey) (s.ctx p).nextRecord [takenCode]) := by
  rw [State.takenWrite, State.atPhase_of_intake h, State.issueRecord_zero]
  rfl

/-- Settles O56. -/
theorem addressRuleAcceptsByTarget : Obligations.AddressRuleAcceptsByTarget := by
  unfold Obligations.AddressRuleAcceptsByTarget
  refine ⟨fun t owner e => ⟨t.accepts_directed owner, fun h => ?_, fun h => ?_, fun h other => ?_⟩,
    fun t owner e head => ⟨rfl, rfl, fun h => ?_, classifyEarly_of_not_accepted, fun inRange accepted => ⟨fun off => ?_, ?_⟩,
      fun before f after split earlier first => ?_, fun none_matches => ?_⟩,
    fun s p rf slices done e rest => ⟨State.classify_nil p rf slices done s, fun d h => State.classify_decided h rf slices done rest,
      fun h => State.classify_reads h rf slices done rest,
      fun i intake program phase => ⟨fun halted held => ⟨fun data => ?_, fun f => ?_⟩, fun stopped f => ?_⟩⟩,
    fun s p rf slices sides i intake => State.takenWrite_of_intake intake p rf slices sides⟩
  · rw [t.accepts_broadcast owner h]
  · rw [t.accepts_group owner h]
  · exact classifyEarly_of_not_accepted (Bool.eq_false_iff.2 fun accepted => other ((t.accepts_directed owner h).1 accepted))
  · exact classifyEarly_of_invalid (fun valid => h (e.valid_iff.1 valid)) t owner
  · have none_enabled : t.filters.any Filter.enabled = false := List.any_eq_false.2 fun f mem => by simp [off f mem]
    rw [classifyEarly_of_accepted (e.valid_iff.2 inRange) accepted, none_enabled]
    rfl
  · rintro ⟨f, mem, enabled⟩
    rw [classifyEarly_of_accepted (e.valid_iff.2 inRange) accepted, List.any_eq_true.2 ⟨f, mem, enabled⟩]
    rfl
  · have decided := classifyHead_of_match (head := head) split
      (fun g mem is_match => earlier g mem ((g.matchesHead_iff _ _).1 is_match)) ((f.matchesHead_iff _ _).2 first)
    exact ⟨fun action => by rw [decided, action]; rfl, fun action => by rw [decided, action]; rfl,
      fun action => by rw [decided, action]; rfl⟩
  · exact classifyHead_of_no_match fun f mem is_match => none_matches f mem ((f.matchesHead_iff _ _).1 is_match)
  · rw [State.intakeStep_headRead intake program phase]
    exact State.takeOn_of_open intake halted held fun s =>
      (s.cueMatched p (classifyHead s.loading s.side.table e data)).classify p rf slices
        (done ++ [e.classified (classifyHead s.loading s.side.table e data)]) rest
  · rw [State.intakeStep_headRead intake program phase]
    exact State.takeOn_of_open (s := s.noteSideFault p) intake halted held _
  · rw [State.intakeStep_headRead intake program phase]
    exact State.takeOn_of_stopped (s := s.noteSideFault p) intake stopped _

end Sys2Proof.Machine

/-! PROOFS. The side path's builds: what a link writes, and how the path goes on with the next waiting message (R141 to R143). -/

namespace Sys2Proof.Machine

/-! ### The places of a page -/

theorem pageWrites_places (page : Nat) (cells : List (List Byte)) :
    (pageWrites page cells).map Prod.fst = (List.range cells.length).map (placeIndex page) := by
  rw [pageWrites, List.map_map]
  apply List.ext_getElem (by simp)
  intro i _ _
  simp

theorem placeIndex_strictMono (page : Nat) : StrictMono (placeIndex page) := fun _ _ h => Nat.add_lt_add_left h _

theorem pageWrites_rising (page : Nat) (cells : List (List Byte)) :
    ((pageWrites page cells).map Prod.fst).Pairwise (· < ·) := by
  rw [pageWrites_places, List.pairwise_map]
  exact List.pairwise_lt_range.imp fun h => placeIndex_strictMono page h

theorem pageOfPlace_placeIndex (page : Nat) {place : Nat} (h : place < Config.placesPerPage) :
    pageOfPlace (placeIndex page place) = page := by
  simp only [Config.placesPerPage] at h
  simp only [pageOfPlace, placeIndex, Config.placesPerPage]
  omega

/-- In rising places each one listed reads what is listed with it. -/
theorem CellMemory.read_of_mem {cells : CellMemory} (rising : (cells.map Prod.fst).Pairwise (· < ·)) {i : Nat} {c : List Byte}
    (mem : (i, c) ∈ cells) : CellMemory.read cells i = some c := by
  induction cells with
  | nil => cases mem
  | cons x rest ih =>
    obtain ⟨j, d⟩ := x
    rw [List.map_cons, List.pairwise_cons] at rising
    obtain here | behind := List.mem_cons.1 mem
    · cases here
      rw [CellMemory.read, if_pos rfl]
    · rw [CellMemory.read, if_neg (rising.1 i (List.mem_map_of_mem behind)).ne]
      exact ih rising.2 behind

theorem CellMemory.read_none_of_not_mem {cells : CellMemory} {i : Nat} (h : i ∉ cells.map Prod.fst) :
    CellMemory.read cells i = none := by
  induction cells with
  | nil => rfl
  | cons x rest ih =>
    obtain ⟨j, d⟩ := x
    rw [List.map_cons, List.mem_cons, not_or] at h
    rw [CellMemory.read, if_neg (Ne.symm h.1)]
    exact ih h.2

theorem mem_pageWrites {page i : Nat} {cells : List (List Byte)} {c : List Byte} (h : cells[i]? = some c) :
    (placeIndex page i, c) ∈ pageWrites page cells :=
  List.mem_map.2 ⟨(c, i), List.mem_zipIdx_iff_getElem?.2 h, rfl⟩

/-- The cells written to a page stand in its places from place 0. -/
theorem read_pageWrites (m : CellMemory) (page : Nat) (cells : List (List Byte)) :
    ((List.range cells.length).map fun i => CellMemory.read (m.writeAll (pageWrites page cells)) (placeIndex page i)) =
      cells.map some := by
  apply List.ext_getElem (by simp)
  intro i h _
  have bound : i < cells.length := by simpa using h
  simp only [List.getElem_map, List.getElem_range]
  rw [CellMemory.read_writeAll (pageWrites_rising page cells),
    CellMemory.read_of_mem (pageWrites_rising page cells) (mem_pageWrites (List.getElem?_eq_getElem bound)), Option.some_or]

/-- The places of other pages keep their cells. -/
theorem read_pageWrites_other (m : CellMemory) {page place : Nat} {cells : List (List Byte)}
    (fits : cells.length ≤ Config.placesPerPage) (other : pageOfPlace place ≠ page) :
    CellMemory.read (m.writeAll (pageWrites page cells)) place = CellMemory.read m place := by
  have outside : place ∉ (pageWrites page cells).map Prod.fst := by
    rw [pageWrites_places]
    rintro mem
    obtain ⟨i, hi, rfl⟩ := List.mem_map.1 mem
    exact other (pageOfPlace_placeIndex page (Nat.lt_of_lt_of_le (List.mem_range.1 hi) fits))
  rw [CellMemory.read_writeAll (pageWrites_rising page cells), CellMemory.read_none_of_not_mem outside, Option.none_or]

/-! ### The next waiting message -/

theorem find?_waiting {before after : List Reserved} {r : Reserved} (earlier : ∀ x ∈ before, x.state ≠ .waiting)
    (waiting : r.state = .waiting) : (before ++ r :: after).find? (fun r => r.state = .waiting) = some r := by
  have none_before : before.find? (fun r => r.state = .waiting) = none :=
    List.find?_eq_none.2 fun x mem => by simpa using earlier x mem
  rw [List.find?_append, none_before, Option.none_or, List.find?_cons_of_pos (by simpa using waiting)]

theorem markBuilding_split {before after : List Reserved} {r : Reserved} (earlier : ∀ x ∈ before, x.state ≠ .waiting)
    (waiting : r.state = .waiting) : markBuilding (before ++ r :: after) = before ++ { r with state := .building } :: after := by
  induction before with
  | nil => exact if_pos waiting
  | cons x rest ih =>
    rw [List.forall_mem_cons] at earlier
    rw [List.cons_append, markBuilding, if_neg earlier.1, ih earlier.2]
    rfl

/-- The state with the first waiting message dropped after its read was refused: its page is back, its fault noted (R143). -/
def State.sideDropped (s : State) (before : List Reserved) (r : Reserved) (after : List Reserved) (page : Nat)
    (free : List Nat) : State :=
  { s with
    store := ({ s.store with free := free } : Store).giveBack [page]
    side := { s.side with
      reserved := (before ++ after).filter fun x => x.state ≠ .building
      faultNote := s.side.faultNote.put r.message.program true } }

/-- With nothing to build the side path stays as it is. -/
theorem State.startSideBuild_idle {s : State}
    (idle : s.side.stopped = true ∨ s.side.build ≠ none ∨ ∀ r ∈ s.side.reserved, r.state ≠ .waiting) :
    ∀ fuel, s.startSideBuild fuel = s
  | 0 => rfl
  | fuel + 1 => by
    obtain stopped | building | none_waits := idle
    · simp [State.startSideBuild, stopped]
    · simp [State.startSideBuild, Option.isSome_iff_ne_none.2 building]
    · have none_found : s.side.reserved.find? (fun r => r.state = .waiting) = none :=
        List.find?_eq_none.2 fun r mem => by simpa using none_waits r mem
      simp [State.startSideBuild, none_found]

section Waiting

variable {s : State} (unstopped : s.side.stopped = false) (idle : s.side.build = none) {before after : List Reserved} {r : Reserved}
  (split : s.side.reserved = before ++ r :: after) (earlier : ∀ x ∈ before, x.state ≠ .waiting) (waiting : r.state = .waiting)

include unstopped idle split earlier waiting

theorem State.startSideBuild_no_page (empty : s.store.free = []) (fuel : Nat) :
    s.startSideBuild (fuel + 1) = { s with side := { s.side with stopped := true } } := by
  have none_free : s.store.request 1 = none := by simp [Store.request, empty]
  simp [State.startSideBuild, unstopped, idle, split, find?_waiting earlier waiting, none_free]
  rfl

theorem State.startSideBuild_page {page : Nat} {free : List Nat} (pages : s.store.free = page :: free) (fuel : Nat) :
    (∀ region, checkAccess s.link.regions (readRequest .side (some r.message.key) r.message.address r.message.length) =
        .ok region →
      s.startSideBuild (fuel + 1) = { s with
        store := { s.store with free := free }
        side := { s.side with
          reserved := before ++ { r with state := .building } :: after
          build := some { message := r.message, page := page, data := none } }
        link := { s.link with
          accesses := s.link.accesses ++
            [{ tag := s.link.nextTag, agent := .side, kind := .read, addr := r.message.address, length := r.message.length
               key := some r.message.key, region := region, data := [] }]
          nextTag := s.link.nextTag + 1 } }) ∧
    ∀ e, checkAccess s.link.regions (readRequest .side (some r.message.key) r.message.address r.message.length) = .error e →
      s.startSideBuild (fuel + 1) = (s.sideDropped before r after page free).startSideBuild fuel := by
  have one_page : s.store.request 1 = some ([page], { s.store with free := free }) := by simp [Store.request, pages]
  have marked := markBuilding_split (after := after) earlier waiting
  constructor
  · intro region ok
    simp only [State.startSideBuild, unstopped, idle, split, find?_waiting earlier waiting, one_page, marked]
    simp only [State.issue, State.setSide_link, State.setStore_link, ok]
    rfl
  · rintro ⟨result, region⟩ refused
    simp only [State.startSideBuild, unstopped, idle, split, find?_waiting earlier waiting, one_page, marked]
    simp only [State.issue, State.setSide_link, State.setStore_link, refused]
    have dropped : dropBuilding (before ++ { r with state := .building } :: after) =
        (before ++ after).filter fun x => x.state ≠ .building := by simp [dropBuilding]
    simp only [State.sideFault, State.setSide, State.returnPages, State.setStore, State.noteSideFault, dropped]
    rw [if_neg (by simp)]
    simp only [State.sideDropped, idle, unstopped]

end Waiting

theorem State.sideDropped_reserved_length (s : State) {before after : List Reserved} {r : Reserved}
    (split : s.side.reserved = before ++ r :: after) (page : Nat) (free : List Nat) :
    (s.sideDropped before r after page free).side.reserved.length < s.side.reserved.length := by
  have kept : ((before ++ after).filter fun x => x.state ≠ .building).length ≤ (before ++ after).length :=
    List.length_filter_le _ _
  rw [split]
  simp only [State.sideDropped, List.length_append, List.length_cons] at kept ⊢
  omega

/-- Each refused read drops a reserved message, so more fuel than messages changes nothing. -/
theorem State.startSideBuild_fuel (fuel : Nat) : ∀ (s : State) (fuel' : Nat),
    s.side.reserved.length < fuel → s.side.reserved.length < fuel' → s.startSideBuild fuel = s.startSideBuild fuel' := by
  induction fuel with
  | zero => exact fun s _ h => absurd h (Nat.not_lt_zero _)
  | succ fuel ih =>
    intro s fuel' enough enough'
    obtain ⟨fuel', rfl⟩ := Nat.exists_eq_add_one_of_ne_zero (Nat.ne_of_gt (Nat.zero_lt_of_lt enough'))
    by_cases idle : s.side.stopped = true ∨ s.side.build ≠ none ∨ ∀ r ∈ s.side.reserved, r.state ≠ .waiting
    · rw [State.startSideBuild_idle idle, State.startSideBuild_idle idle]
    · simp only [not_or, not_not, Bool.not_eq_true] at idle
      obtain ⟨unstopped, unbuilt, some_waits⟩ := idle
      obtain ⟨r, found⟩ : ∃ r, s.side.reserved.find? (fun r => r.state = .waiting) = some r :=
        Option.ne_none_iff_exists'.1 fun none_found => some_waits fun r mem => by
          simpa using List.find?_eq_none.1 none_found r mem
      obtain ⟨waiting, before, after, split, earlier⟩ := List.find?_eq_some_iff_append.1 found
      replace waiting : r.state = .waiting := by simpa using waiting
      replace earlier : ∀ x ∈ before, x.state ≠ .waiting := by simpa using earlier
      match pages : s.store.free with
      | [] =>
        rw [State.startSideBuild_no_page unstopped unbuilt split earlier waiting pages,
          State.startSideBuild_no_page unstopped unbuilt split earlier waiting pages]
      | page :: free =>
        have step := State.startSideBuild_page unstopped unbuilt split earlier waiting pages
        match access : checkAccess s.link.regions
            (readRequest .side (some r.message.key) r.message.address r.message.length) with
        | .ok region => rw [(step fuel).1 region access, (step fuel').1 region access]
        | .error e =>
          have fewer := s.sideDropped_reserved_length split page free
          rw [(step fuel).2 e access, (step fuel').2 e access]
          exact ih _ _ (by omega) (by omega)

/-- R141, R143: how the side path goes on. -/
theorem State.nextSideBuild_builds (s : State) : s.BuildsSide s.nextSideBuild := by
  refine ⟨fun idle => State.startSideBuild_idle idle _, fun unstopped unbuilt before r after split earlier waiting => ⟨fun empty => ?_,
    fun page free pages => ⟨fun region ok => ?_, fun e refused => ?_⟩⟩⟩
  · exact State.startSideBuild_no_page unstopped unbuilt split earlier waiting empty _
  · exact (State.startSideBuild_page unstopped unbuilt split earlier waiting pages _).1 region ok
  · have fewer := s.sideDropped_reserved_length split page free
    rw [State.nextSideBuild, (State.startSideBuild_page unstopped unbuilt split earlier waiting pages _).2 e refused]
    exact State.startSideBuild_fuel _ _ _ (by omega) (by exact Nat.lt_succ_self _)

/-! ### A side link -/

theorem markBuilt_eq (rs : List Reserved) :
    markBuilt rs = rs.map fun r => if r.state = .building then { r with state := .built } else r := rfl

/-- R141, R142: what a side link writes and links. -/
theorem State.linkSideBuild_eq (s : State) (b : SideBuild) (data : List Byte) :
    let cells := sideCells b.message.program (s.side.counters.look b.message.program) (s.timer.number + 1) b.message.index 0
      (payloads data)
    s.linkSideBuild b data = { s with
      store := { s.store with cells := s.store.cells.writeAll (pageWrites b.page cells) }
      line := s.line.linkSide b.message.program (placeEntries b.page cells.length) b.page
      side := { s.side with
        build := none
        reserved := markBuilt s.side.reserved
        counters := s.side.counters.put b.message.program
          (s.side.counters.look b.message.program + BitVec.ofNat 4 cells.length) } } := rfl

/-- Settles O58. -/
theorem sideLinkAppendsTheMessage : Obligations.SideLinkAppendsTheMessage := by
  unfold Obligations.SideLinkAppendsTheMessage
  intro s b data building read bounded
  have count : (sideCells b.message.program (s.side.counters.look b.message.program) (s.timer.number + 1) b.message.index 0
      (payloads data)).length = (data.length + 191) / 192 := by rw [sideCells_length, payloads_length]
  have fits : (data.length + 191) / 192 ≤ Config.placesPerPage := by
    simp only [Config.placesPerPage]
    omega
  have links : exec .sideLink s = .next (s.linkSideBuild b data).nextSideBuild := by
    show execSideLink s = _
    simp only [execSideLink, building, read]
  refine ⟨s.linkSideBuild b data, _, links, State.nextSideBuild_builds _, ?_, ?_, ?_, fun q other => ?_, rfl, ?_,
    fun place other => ?_, ?_, rfl⟩
  · rw [State.linkSideBuild_eq, count]
    simp only [Line.linkSide, PerProgram.look_modify_same, placeEntries]
  · rw [State.linkSideBuild_eq]
    simp only [Line.linkSide, PerProgram.look_modify_same]
  · rw [State.linkSideBuild_eq]
    simp only [Line.linkSide, PerProgram.look_modify_same]
  · exact PerProgram.look_modify_ne _ other _
  · rw [← count]
    exact read_pageWrites _ _ _
  · exact read_pageWrites_other _ (count ▸ fits) other
  · rw [State.linkSideBuild_eq, count, markBuilt_eq]

end Sys2Proof.Machine

/-! PROOFS. What the three resets leave in every block (10, R179, and R129 for the retired set). -/

namespace Sys2Proof.Machine

theorem mem_foldl_insertPage {p : Nat} (pages : List Nat) (retired : List Nat) :
    p ∈ pages.foldl (fun r q => insertPage q r) retired ↔ p ∈ retired ∨ p ∈ pages := by
  induction pages generalizing retired with
  | nil => simp
  | cons q rest ih =>
    rw [List.foldl_cons, ih, mem_insertPage, List.mem_cons]
    tauto

theorem State.mem_retiredAfterReset (s : State) (p : Nat) :
    p ∈ s.retiredAfterReset ↔ p ∈ s.store.retired ∨ (p ∈ s.line.sendingPages ∧ p ∈ s.store.marks) ∨
      ∃ x, s.store.test = some x ∧ x.phase = .pages p .retired := by
  unfold State.retiredAfterReset
  rw [mem_foldl_insertPage, List.mem_append, List.mem_filter, List.contains_iff_mem]
  refine or_congr .rfl (or_congr .rfl ?_)
  match s.store.test with
  | none => simp
  | some ⟨last, tested, usable, retired, next, interrupted, phase⟩ =>
    match phase with
    | .pages page .retired => simp [eq_comm]
    | .pages page .free => simp
    | .between => simp
    | .writing => simp
    | .ended result => simp

theorem State.afterReset_ctx (s : State) (control : Control) (store : Store) (p : Program) :
    (s.afterReset control store).ctx p =
      { ProgramCtx.reset with window := { head := 0, count := 0, slots := (s.ctx p).window.slots } } :=
  PerProgram.look_tabulate _ p

/-- RESET's event is the one flag raised, and no enable bit lets it reach the line. -/
theorem State.afterReset_raise_commandDone (s : State) (store : Store) :
    ((s.afterReset s.control.afterReset store).raise .commandDone) =
      s.afterReset { s.control.afterReset with events := 1 } store := by
  have driven : s.control.afterReset.drive (s.control.afterReset.events ||| EventFlag.commandDone.bit)
      s.control.afterReset.enable = { s.control.afterReset with events := 1 } := by
    simp [Control.drive, Control.afterReset, Control.reset, EventFlag.bit]
  exact congrArg (fun c => s.afterReset c store) driven

/-- Settles O37. -/
theorem resetsGiveEveryBlockItsValues : Obligations.ResetsGiveEveryBlockItsValues := by
  unfold Obligations.ResetsGiveEveryBlockItsValues
  refine fun s => ⟨fun c reset => ?_, ?_⟩
  · have runs : exec c s = .next (s.afterReset Control.reset Store.reset) := by
      obtain rfl | rfl := reset
      · rfl
      · rfl
    exact ⟨_, runs, rfl, rfl, rfl, rfl, rfl, rfl, rfl, rfl, rfl, rfl, rfl, rfl, s.afterReset_ctx _ _⟩
  · have runs : exec .reset s =
        .next (s.afterReset { s.control.afterReset with events := 1 } (s.store.rebuilt s.retiredAfterReset)) :=
      congrArg Host.Outcome.next (s.afterReset_raise_commandDone _)
    exact ⟨_, runs, rfl, s.mem_retiredAfterReset, rfl, rfl, rfl, rfl, rfl, rfl, rfl, rfl, rfl, rfl, rfl, s.afterReset_ctx _ _⟩

end Sys2Proof.Machine

/-! PROOFS. HALT: what it ends in every block (10, R177), and the controller's work that follows it (R15). -/

namespace Sys2Proof.Machine

/-! ### What the controller's HALT work changes -/

/-- From s to t the controller has done work that HALT gives it: it wrote records and status parts, turned programs OFF and took
their parity records out of force. -/
structure HaltFrame (s t : State) : Prop where
  rest : t = { s with control := t.control, controller := t.controller, keys := t.keys, link := t.link }
  control : t.control = { s.control with notice := t.control.notice }
  noNotice : s.control.device ≠ .draining → t.control = s.control
  keys : t.keys = { s.keys with records := t.keys.records }
  regions : t.link.regions = s.link.regions
  accesses : s.link.accesses <+: t.link.accesses

variable {r s t : State} {p : Program}

theorem HaltFrame.refl (s : State) : HaltFrame s s := ⟨rfl, rfl, fun _ => rfl, rfl, rfl, List.prefix_rfl⟩

theorem HaltFrame.trans (a : HaltFrame r s) (b : HaltFrame s t) : HaltFrame r t where
  rest := by
    have h := b.rest
    rw [a.rest] at h
    exact h
  control := by
    have h := b.control
    rw [a.control] at h
    exact h
  noNotice hd := by
    have same := a.noNotice hd
    exact (b.noNotice (same ▸ hd)).trans same
  keys := by
    have h := b.keys
    rw [a.keys] at h
    exact h
  regions := b.regions.trans a.regions
  accesses := a.accesses.trans b.accesses

theorem HaltFrame.setController (h : HaltFrame r s) (c : Controller) : HaltFrame r (s.setController c) :=
  h.trans ⟨rfl, rfl, fun _ => rfl, rfl, rfl, List.prefix_rfl⟩

theorem HaltFrame.issue (h : HaltFrame r s) (x : Request) : HaltFrame r (s.issue x).1 := by
  obtain ⟨_, _, issued⟩ | ⟨_, _, _, refused⟩ := s.issue_cases x
  · rw [issued]
    exact h.trans ⟨rfl, rfl, fun _ => rfl, rfl, rfl, List.prefix_append _ _⟩
  · rw [refused]
    exact h

theorem HaltFrame.of_issue {x : Request} {u : State} {o : Option Reply} (h : HaltFrame r s) (e : s.issue x = (u, o)) :
    HaltFrame r u := by
  have issued := h.issue x
  rwa [e] at issued

theorem HaltFrame.noticeIfAllOff (h : HaltFrame r s) : HaltFrame r s.noticeIfAllOff := by
  unfold State.noticeIfAllOff
  split
  next draining => exact h.trans ⟨rfl, rfl, fun other => absurd draining.1 other, rfl, rfl, List.prefix_rfl⟩
  next => exact h

theorem HaltFrame.programOff (h : HaltFrame r s) (p : Program) : HaltFrame r (s.programOff p) :=
  HaltFrame.noticeIfAllOff
    ((h.setController _).trans ⟨rfl, rfl, fun _ => rfl, rfl, rfl, List.prefix_rfl⟩)

theorem HaltFrame.endAbandon (h : HaltFrame r s) (p : Program) : HaltFrame r (s.endAbandon p) :=
  (h.setController _).programOff p

theorem HaltFrame.statusRun : ∀ (todo : List Program) {s : State}, HaltFrame r s → HaltFrame r (s.statusRun todo)
  | [], s, h => by
    unfold State.statusRun
    dsimp only
    split
    · exact (h.setController _).setController _
    · exact h.setController _
  | p :: rest, s, h => by
    unfold State.statusRun
    split
    next e => exact (h.of_issue e).setController _
    next e => exact HaltFrame.statusRun rest ((h.of_issue e).setController _)

theorem HaltFrame.startStatus (h : HaltFrame r s) : HaltFrame r s.startStatus := by
  unfold State.startStatus
  split
  · exact h.statusRun _
  · exact h.setController _

theorem HaltFrame.abandonFrom (agent : Agent) (p : Program) : ∀ (fuel i : Nat) {s : State}, HaltFrame r s →
    HaltFrame r (s.abandonFrom agent (State.haltNote p) p fuel i).1
  | 0, i, s, h => h
  | fuel + 1, i, s, h => by
    unfold State.abandonFrom
    dsimp only
    split
    · exact h
    · split
      · exact HaltFrame.abandonFrom agent p fuel (i + 1) h
      · split
        next e => exact h.of_issue e
        next e => exact HaltFrame.abandonFrom agent p fuel (i + 1) ((h.of_issue e).setController _)

theorem HaltFrame.haltAdvance (writesStatus : Bool) : ∀ (todo : List Program) {s : State}, HaltFrame r s →
    HaltFrame r (State.haltAdvance writesStatus todo s)
  | [], s, h => by
    unfold State.haltAdvance
    split
    · exact (h.setController _).startStatus
    · exact h.setController _
  | p :: rest, s, h => by
    have visited := HaltFrame.abandonFrom .halt p 4 0 h
    unfold State.haltAdvance
    split
    · exact HaltFrame.haltAdvance writesStatus rest h
    · split
      · exact h.setController _
      · split
        next e => exact (e ▸ visited).setController _
        next e => exact (e ▸ visited).setController _
        next e => exact HaltFrame.haltAdvance writesStatus rest ((e ▸ visited).endAbandon p)

/-! ### The status parts -/

theorem State.issueStatus_controller {o : Option Reply} (e : s.issueStatus p = (t, o)) : t.controller = s.controller := by
  have issued : (s.issueStatus p).1.controller = s.controller := State.issue_controller _ _
  rwa [e] at issued

theorem State.statusRun_programs : ∀ (todo : List Program) (s : State),
    (s.statusRun todo).controller.programs = s.controller.programs
  | [], s => by
    unfold State.statusRun
    dsimp only
    split
    · rfl
    · rfl
  | p :: rest, s => by
    unfold State.statusRun
    split
    next u e =>
      rw [← State.issueStatus_controller e]
      rfl
    next u reply e =>
      rw [← State.issueStatus_controller e]
      exact State.statusRun_programs rest _

/-- While HALT waits for the status parts it does so until their end. -/
theorem State.statusRun_halt : ∀ (todo : List Program) (s : State),
    (s.statusRun todo).controller.halt.isSome = s.controller.halt.isSome
  | [], s => by
    unfold State.statusRun
    dsimp only
    split
    next waits => rw [waits]; rfl
    · rfl
  | p :: rest, s => by
    unfold State.statusRun
    split
    next u e =>
      rw [← State.issueStatus_controller e]
      rfl
    next u reply e =>
      rw [← State.issueStatus_controller e]
      exact State.statusRun_halt rest _

theorem State.startStatus_programs (s : State) : s.startStatus.controller.programs = s.controller.programs := by
  unfold State.startStatus
  split
  · exact s.statusRun_programs _
  · rfl

theorem State.startStatus_halt (s : State) : s.startStatus.controller.halt.isSome = s.controller.halt.isSome := by
  unfold State.startStatus
  split
  · exact s.statusRun_halt _
  · rfl

/-- However far HALT's visit comes, the controller is at a phase of its HALT work. -/
theorem State.haltAdvance_halt (writesStatus : Bool) : ∀ (todo : List Program) (s : State),
    (State.haltAdvance writesStatus todo s).controller.halt.isSome = true
  | [], s => by
    unfold State.haltAdvance
    split
    · exact State.startStatus_halt _
    · rfl
  | p :: rest, s => by
    unfold State.haltAdvance
    split
    · exact State.haltAdvance_halt writesStatus rest s
    · split
      · rfl
      · split
        · rfl
        · rfl
        · exact State.haltAdvance_halt writesStatus rest _

end Sys2Proof.Machine

/-! PROOFS. HALT in each device state (10, R177). -/

namespace Sys2Proof.Machine

/-! ### What HALT ends in the blocks -/

theorem State.haltRecoder_eq (s : State) : s.haltRecoder = { s with
    store := s.recoder.jobs.foldl (fun store j => store.giveBack j.pages) s.store
    link := { s.link with accesses := s.link.accesses.filter fun a => !a.agent.isEngine }
    recoder := { s.recoder with
      queue := [], re0 := { s.recoder.re0 with phase := .idle }, re1 := { s.recoder.re1 with phase := .idle }
      spare := 0 } } := by
  rw [State.haltRecoder, State.returnJobs_eq]
  rfl

/-- The store once the page of a side build is back. -/
def State.sideStoreBack (s : State) : Store := (s.side.build.map fun b => s.store.giveBack [b.page]).getD s.store

theorem State.haltSide_eq (s : State) : s.haltSide = { s with
    store := s.sideStoreBack
    link := { s.link with accesses := s.link.accesses.filter fun a => !(a.agent == .side) }
    side := { s.side with queue := [], reserved := [], build := none, stopped := false } } := by
  unfold State.haltSide State.endReservation State.sideStoreBack
  cases s.side.build with
  | none => rfl
  | some b => rfl

theorem State.haltQueues_eq (s : State) : s.haltQueues = { s with
    allocator := { s.allocator with debt := PerProgram.fill 0, inFlight := none, isOpen := false }
    store := s.sideStoreBack
    link := { s.link with accesses := s.link.accesses.filter fun a => !(a.agent == .side) }
    side := { s.side with queue := [], reserved := [], build := none, stopped := false } } := by
  rw [State.haltQueues, State.haltSide_eq]
  rfl

/-- The accesses that HALT's blocks end are those of START, the loads, PROBE, the engines and the side path. -/
theorem filter_endsAtHalt (accesses : List Access) :
    (((accesses.filter fun a => !a.agent.endsAtHalt).filter fun a => !a.agent.isEngine).filter fun a => !(a.agent == .side)) =
      accesses.filter fun a => a.agent ∉
        [Agent.start, .filterLoad, .regionReload, .probe, .engine .re0, .engine .re1, .side] := by
  rw [List.filter_filter, List.filter_filter]
  apply List.filter_congr
  intro a _
  match a.agent with
  | .engine .re0 => rfl
  | .engine .re1 => rfl
  | .finish p => simp [Agent.endsAtHalt, Agent.isEngine]
  | .start => rfl
  | .filterLoad => rfl
  | .regionReload => rfl
  | .probe => rfl
  | .pageTest => rfl
  | .intake => rfl
  | .halt => rfl
  | .status => rfl
  | .side => rfl
  | .report => rfl
  | .faultRecord => rfl

/-! ### The device that HALT leaves -/

/-- R127: HALT asks the page under test to be the last one. -/
def PageTest.interrupt (x : PageTest) : PageTest :=
  match x.phase with
  | .pages .. => { x with interrupted := true }
  | _ => x

/-- The cell store after the jobs', the side build's and the line's pages have returned. -/
def State.storeAtHalt (s : State) : Store :=
  let jobsBack := s.recoder.jobs.foldl (fun store j => store.giveBack j.pages) s.store
  let sideBack := (s.side.build.map fun b => jobsBack.giveBack [b.page]).getD jobsBack
  sideBack.giveBack (s.line.sendingPages ++ s.line.buildingPages ++ s.line.holdingPages)

theorem Store.foldl_giveBack_test (jobs : List Job) (store : Store) :
    (jobs.foldl (fun store j => store.giveBack j.pages) store).test = store.test := by
  induction jobs generalizing store with
  | nil => rfl
  | cons j rest ih => exact (ih _).trans (Store.giveBack_test _ _)

theorem State.storeAtHalt_test (s : State) : s.storeAtHalt.test = s.store.test := by
  have jobsBack := Store.foldl_giveBack_test s.recoder.jobs s.store
  unfold State.storeAtHalt
  cases s.side.build with
  | none => exact jobsBack
  | some b => exact jobsBack

/-- Every block but the test has ended its work, and the controller writes at most the status part in flight. -/
def State.haltBlocks (s : State) : State :=
  { s with
    control := { s.control with
      device := .halting, inFlight := some .halt, ignored := false, start := none, filterLoad := none
      regionReload := none, probe := none, notice := false, drainEnding := false, endedTest := none }
    timer := { s.timer with running := false }
    link := { s.link with
      accesses := s.link.accesses.filter fun a => a.agent ∉
        [.start, .filterLoad, .regionReload, .probe, .engine .re0, .engine .re1, .side] }
    controller := { s.controller with statusTodo := s.controller.statusTodo.take 1 }
    allocator := { s.allocator with debt := PerProgram.fill 0, inFlight := none, isOpen := false }
    recoder := { s.recoder with
      queue := [], re0 := { s.recoder.re0 with phase := .idle }, re1 := { s.recoder.re1 with phase := .idle }
      spare := 0 }
    side := { s.side with queue := [], reserved := [], build := none, stopped := false }
    line := { s.line with
      active := false, building := PerProgram.fill { deferred := [], picture := [], side := [] }, buildingPages := []
      sending := PerProgram.fill { entries := [], next := 0 }, sendingPages := [], holding := PerProgram.fill []
      holdingPages := [] }
    store := s.storeAtHalt
    reporter := { s.reporter with
      work := s.reporter.work.map fun w => { w with figures := { w.figures with endsDrain := false } }
      waiting := s.reporter.waiting.map fun f => { f with endsDrain := false } } }

/-- A page under test keeps its place and is to be the last one; between two pages the record is written. -/
theorem State.interruptTest_of_not_between (s : State) (h : ∀ x, s.store.test = some x → x.phase ≠ .between) :
    s.interruptTest = { s with store := { s.store with test := s.store.test.map PageTest.interrupt } } := by
  unfold State.interruptTest
  match test : s.store.test with
  | none => exact (congrArg (fun t => ({ s with store := { s.store with test := t } } : State)) test)
  | some x =>
    have running := h x test
    obtain ⟨last, tested, usable, retired, next, interrupted, phase⟩ := x
    match phase, running with
    | .pages page origin, _ => rfl
    | .writing, _ => exact (congrArg (fun t => ({ s with store := { s.store with test := t } } : State)) test)
    | .ended result, _ => exact (congrArg (fun t => ({ s with store := { s.store with test := t } } : State)) test)

theorem State.interruptTest_of_between {s : State} {x : PageTest} (test : s.store.test = some x) (phase : x.phase = .between) :
    s.interruptTest = s.testRecord { x with interrupted := true } := by
  simp only [State.interruptTest, test, phase]

/-! ### The record of a test -/

theorem State.testRecord_of_aligned {s : State} (aligned : alignedAddress s.control.directory = true) (x : PageTest) :
    s.testRecord x = { s with
      store := { s.store with test := some { x with phase := .writing } }
      link := { s.link with
        accesses := s.link.accesses ++
          [{ tag := s.link.nextTag, agent := .pageTest, kind := .write, addr := s.control.directory + 0x54, length := 8
             key := none, region := 0xFF, data := testBytes x.tested x.usable x.retired x.next }]
        nextTag := s.link.nextTag + 1 } } := by
  rw [State.testRecord, if_pos aligned, State.issue_unchecked _ _ rfl]
  rfl

theorem State.testRecord_of_misaligned {s : State} (misaligned : ¬ alignedAddress s.control.directory = true) (x : PageTest) :
    s.testRecord x = { s with store := { s.store with test := some { x with phase := .ended .directoryAccess } } } := by
  rw [State.testRecord, if_neg misaligned]
  rfl

/-- R126: the record of a test is written at the directory address, or not attempted. -/
theorem State.testRecord_records (s : State) (x : PageTest) : s.RecordsTest x (s.testRecord x) := by
  refine ⟨fun aligned => State.testRecord_of_aligned (alignedAddress_iff.2 aligned) x, fun misaligned => ?_⟩
  refine State.testRecord_of_misaligned (fun aligned => ?_) x
  obtain ⟨nonzero, multiple⟩ := alignedAddress_iff.1 aligned
  exact misaligned.elim nonzero fun other => other multiple

theorem State.testRecord_frame (s : State) (c : Controller) (r : Reporter) (x : PageTest) :
    ((s.setController c).setReporter r).testRecord x = ((s.testRecord x).setController c).setReporter r := by
  by_cases aligned : alignedAddress s.control.directory = true
  · rw [State.testRecord_of_aligned aligned, State.testRecord_of_aligned (s := (s.setController c).setReporter r) aligned]
    rfl
  · rw [State.testRecord_of_misaligned aligned, State.testRecord_of_misaligned (s := (s.setController c).setReporter r) aligned]
    rfl

/-- HALT's work on a test needs neither the controller nor the report unit. -/
theorem State.interruptTest_frame (s : State) (c : Controller) (r : Reporter) :
    ((s.setController c).setReporter r).interruptTest = (s.interruptTest.setController c).setReporter r := by
  match test : s.store.test with
  | none => simp only [State.interruptTest, State.setReporter_store, State.setController_store, test]
  | some x =>
    match phase : x.phase with
    | .between =>
      rw [State.interruptTest_of_between (s := s) test phase,
        State.interruptTest_of_between (s := (s.setController c).setReporter r) test phase,
        State.testRecord_frame]
    | .pages _ _ =>
      have running : ∀ y, s.store.test = some y → y.phase ≠ .between := by
        intro y same
        cases test.symm.trans same
        simp [phase]
      rw [s.interruptTest_of_not_between running,
        State.interruptTest_of_not_between ((s.setController c).setReporter r) running]
      rfl
    | .writing => simp only [State.interruptTest, State.setReporter_store, State.setController_store, test, phase]
    | .ended _ => simp only [State.interruptTest, State.setReporter_store, State.setController_store, test, phase]

/-! ### HALT in STARTING, RUNNING, DRAINING and TESTING -/

/-- The device once HALT has ended the work of every block, before the controller's own. -/
def State.haltWork (s : State) : State := s.haltBlocks.interruptTest

/-- The control unit, the timer and the allocator at HALT, with the accesses that the commands and the engines no longer wait for
dropped: what HALT does before the other blocks end. -/
def State.haltBegun (s : State) : State :=
  let s1 := (s.dropAccesses Agent.endsAtHalt).setControl
    { s.control with
      device := .halting, inFlight := some .halt, ignored := false, start := none, filterLoad := none, regionReload := none
      probe := none, notice := false, drainEnding := false, endedTest := none }
  (s1.setTimer { s1.timer with running := false }).setAllocator s1.allocator.halted

theorem State.haltBegun_blocks (s : State) :
    s.haltBegun.haltRecoder.haltSide.stopLine = (s.haltBlocks.setController s.controller).setReporter s.reporter := by
  rw [State.haltRecoder_eq, State.haltSide_eq, State.haltBlocks, ← filter_endsAtHalt]
  rfl

theorem State.haltDevice_eq (s : State) :
    s.haltDevice = (s.haltWork.setController s.controller).haltController s.haltWritesStatus := by
  have own := s.haltBlocks.interruptTest_frame s.haltBlocks.controller s.haltBlocks.reporter
  have ended : s.haltBegun.haltRecoder.haltSide.stopLine.interruptTest.setReporter s.reporter.halted =
      s.haltWork.setController s.controller := by
    rw [State.haltBegun_blocks, State.interruptTest_frame]
    exact congrArg (State.setController · s.controller) own.symm
  have reporter : s.haltBegun.haltRecoder.haltSide.stopLine.interruptTest.reporter = s.reporter := by
    rw [State.haltBegun_blocks, State.interruptTest_frame]
    rfl
  rw [← ended, ← reporter]
  rfl

end Sys2Proof.Machine

/-! PROOFS. HALT settled in each device state (O31): the pages that return, and how the controller goes on (10, R177). -/

namespace Sys2Proof.Machine

/-! ### The pages that return -/

/-- A page is back: in the free list, or, where it was marked in the first store, in the retired set (R119, R123). -/
def Store.Returned (first st : Store) (n : Nat) : Prop :=
  (n ∉ first.marks → n ∈ st.free) ∧ (n ∈ first.marks → n ∈ st.retired)

/-- A page is back, or its mark stands as it did in the first store. -/
def Store.Tracks (first st : Store) (n : Nat) : Prop := (n ∈ st.marks ↔ n ∈ first.marks) ∨ first.Returned st n

variable {first st : Store} {n : Nat}

theorem Store.mem_giveBack_free (st : Store) (pages : List Nat) (n : Nat) :
    n ∈ (st.giveBack pages).free ↔ n ∈ st.free ∨ n ∈ pages ∧ n ∉ st.marks := by
  simp [Store.giveBack_free]

theorem Store.Returned.giveBack (h : first.Returned st n) (pages : List Nat) : first.Returned (st.giveBack pages) n :=
  ⟨fun unmarked => (st.mem_giveBack_free pages n).2 (.inl (h.1 unmarked)),
    fun marked => (st.mem_giveBack_retired pages n).2 (.inl (h.2 marked))⟩

theorem Store.Tracks.returned_giveBack (h : first.Tracks st n) {pages : List Nat} (mem : n ∈ pages) :
    first.Returned (st.giveBack pages) n := by
  obtain same | back := h
  · exact ⟨fun unmarked => (st.mem_giveBack_free pages n).2 (.inr ⟨mem, fun marked => unmarked (same.1 marked)⟩),
      fun marked => (st.mem_giveBack_retired pages n).2 (.inr ⟨mem, same.2 marked⟩)⟩
  · exact back.giveBack pages

theorem Store.Tracks.giveBack (h : first.Tracks st n) (pages : List Nat) : first.Tracks (st.giveBack pages) n := by
  by_cases mem : n ∈ pages
  · exact .inr (h.returned_giveBack mem)
  · obtain same | back := h
    · exact .inl (by rw [st.mem_giveBack_marks, same, and_iff_left mem])
    · exact .inr (back.giveBack pages)

theorem Store.Tracks.giveBackJobs (jobs : List Job) (h : first.Tracks st n) :
    first.Tracks (jobs.foldl (fun store j => store.giveBack j.pages) st) n := by
  induction jobs generalizing st with
  | nil => exact h
  | cons j rest ih => exact ih (h.giveBack j.pages)

theorem Store.Returned.giveBackJobs (jobs : List Job) (h : first.Returned st n) :
    first.Returned (jobs.foldl (fun store j => store.giveBack j.pages) st) n := by
  induction jobs generalizing st with
  | nil => exact h
  | cons j rest ih => exact ih (h.giveBack j.pages)

theorem Store.Tracks.returned_giveBackJobs {jobs : List Job} {j : Job} (h : first.Tracks st n) (job : j ∈ jobs)
    (mem : n ∈ j.pages) : first.Returned (jobs.foldl (fun store j => store.giveBack j.pages) st) n := by
  induction jobs generalizing st with
  | nil => cases job
  | cons k rest ih =>
    obtain rfl | behind := List.mem_cons.1 job
    · exact (h.returned_giveBack mem).giveBackJobs rest
    · exact ih (h.giveBack k.pages) behind

theorem Store.Tracks.refl (st : Store) (n : Nat) : st.Tracks st n := .inl Iff.rfl

/-- R119, R157: what HALT finds on the line, in a side build and in a job returns. -/
theorem State.returned_storeAtHalt (s : State) {ps : List Nat}
    (h : ps ∈ s.line.sendingPages :: s.line.buildingPages :: s.line.holdingPages ::
      (s.side.build.map SideBuild.page).toList :: s.recoder.jobs.map Job.pages) (mem : n ∈ ps) :
    s.store.Returned s.storeAtHalt n := by
  have jobsBack := (Store.Tracks.refl s.store n).giveBackJobs s.recoder.jobs
  have sideBack : s.store.Tracks ((s.side.build.map fun b =>
      (s.recoder.jobs.foldl (fun store j => store.giveBack j.pages) s.store).giveBack [b.page]).getD
        (s.recoder.jobs.foldl (fun store j => store.giveBack j.pages) s.store)) n := by
    cases s.side.build with
    | none => exact jobsBack
    | some b => exact jobsBack.giveBack [b.page]
  simp only [List.mem_cons] at h
  obtain rfl | rfl | rfl | rfl | job := h
  · exact sideBack.returned_giveBack (List.mem_append_left _ (List.mem_append_left _ mem))
  · exact sideBack.returned_giveBack (List.mem_append_left _ (List.mem_append_right _ mem))
  · exact sideBack.returned_giveBack (List.mem_append_right _ mem)
  · refine Store.Returned.giveBack ?_ _
    cases build : s.side.build with
    | none => simp [build] at mem
    | some b =>
      have here : n ∈ [b.page] := by simpa [build] using mem
      exact jobsBack.returned_giveBack here
  · obtain ⟨j, among, rfl⟩ := List.mem_map.1 job
    have back := (Store.Tracks.refl s.store n).returned_giveBackJobs among mem
    refine Store.Returned.giveBack ?_ _
    cases s.side.build with
    | none => exact back
    | some b => exact back.giveBack [b.page]

/-! ### How the controller goes on -/

theorem State.interruptTest_controller (s : State) : s.interruptTest.controller = s.controller := by
  have own := s.interruptTest_frame s.controller s.reporter
  exact (congrArg State.controller own :)

/-- An intake that waits for an access is asked to end after its step. -/
theorem State.haltDevice_waits {s : State} {i : Intake} (h : s.controller.intake = some i)
    (waits : i.phase.waitsForAccess = true) :
    s.haltDevice = { s.haltWork with controller := { s.haltWork.controller with
      intake := some { i with halted := true }, halt := some (.waitIntake s.haltWritesStatus) } } := by
  rw [s.haltDevice_eq, State.haltController]
  simp only [State.setController_controller, h]
  rw [if_pos waits, State.haltWork, State.interruptTest_controller]
  rfl

/-- Without such an intake the controller goes on with the windows. -/
theorem State.haltDevice_goesOn {s : State} (h : ∀ i, s.controller.intake = some i → i.phase.waitsForAccess = false) :
    s.haltDevice = State.haltAdvance s.haltWritesStatus programs
      { s.haltWork with controller := { s.haltWork.controller with intake := none } } := by
  rw [s.haltDevice_eq, State.haltController, State.haltWork, State.interruptTest_controller]
  match intake : s.controller.intake with
  | none =>
    simp only [State.setController_controller, intake]
    rw [← intake]
    rfl
  | some i =>
    simp only [State.setController_controller, intake]
    rw [if_neg (by rw [h i intake]; exact Bool.false_ne_true)]
    rfl

theorem IntakePhase.waitsForAccess_iff (phase : IntakePhase) :
    phase.waitsForAccess = true ↔ phase ≠ .waitFinish ∧ phase ≠ .allDone := by
  cases phase <;> simp [IntakePhase.waitsForAccess]

theorem State.haltDevice_frame (s : State) : HaltFrame s.haltWork s.haltDevice := by
  by_cases waits : ∃ i, s.controller.intake = some i ∧ i.phase.waitsForAccess = true
  · obtain ⟨i, intake, waits⟩ := waits
    rw [State.haltDevice_waits intake waits]
    exact (HaltFrame.refl _).setController _
  · rw [State.haltDevice_goesOn fun i intake => Bool.eq_false_iff.2 fun w => waits ⟨i, intake, w⟩]
    exact ((HaltFrame.refl _).setController _).haltAdvance _ _

theorem State.haltDevice_halt (s : State) : s.haltDevice.controller.halt.isSome = true := by
  by_cases waits : ∃ i, s.controller.intake = some i ∧ i.phase.waitsForAccess = true
  · obtain ⟨i, intake, waits⟩ := waits
    rw [State.haltDevice_waits intake waits]
    rfl
  · rw [State.haltDevice_goesOn fun i intake => Bool.eq_false_iff.2 fun w => waits ⟨i, intake, w⟩]
    exact State.haltAdvance_halt _ _ _

/-! ### The test that HALT finds -/

theorem State.haltBlocks_test (s : State) : s.haltBlocks.store.test = s.store.test := s.storeAtHalt_test

/-- Of the blocks that HALT has ended its work on the test changes the test state and the accesses alone. -/
theorem State.haltWork_blocks (s : State) :
    s.haltWork = { s.haltBlocks with
      store := { s.haltBlocks.store with test := s.haltWork.store.test }, link := s.haltWork.link } ∧
    s.haltWork.link.regions = s.link.regions := by
  by_cases between : ∃ x, s.store.test = some x ∧ x.phase = .between
  · obtain ⟨x, test, phase⟩ := between
    rw [State.haltWork, State.interruptTest_of_between (s.haltBlocks_test.trans test) phase]
    by_cases aligned : alignedAddress s.haltBlocks.control.directory = true
    · rw [State.testRecord_of_aligned aligned]
      exact ⟨rfl, rfl⟩
    · rw [State.testRecord_of_misaligned aligned]
      exact ⟨rfl, rfl⟩
  · rw [State.haltWork, s.haltBlocks.interruptTest_of_not_between fun x test phase =>
      between ⟨x, s.haltBlocks_test.symm.trans test, phase⟩]
    exact ⟨rfl, rfl⟩

/-! ### HALT -/

theorem exec_halt_halting {s : State} (halting : s.control.device = .halting) : exec .halt s = .next s.notIgnored := by
  show execHalt s = _
  unfold execHalt
  split
  next => rfl
  next idle => cases halting.symm.trans idle
  next other _ => exact absurd halting other

theorem exec_halt_device {s : State} (halting : s.control.device ≠ .halting) (idle : s.control.device ≠ .idle) :
    exec .halt s = .next s.haltDevice := by
  show execHalt s = _
  unfold execHalt
  split
  next h => exact absurd h halting
  next h => exact absurd h idle
  next => rfl

theorem State.haltCommand_eq (s : State) : s.haltCommand = { s with
    control := { s.control with filterLoad := none, regionReload := none, probe := none }
    allocator := { s.allocator with debt := PerProgram.fill 0, inFlight := none, isOpen := false }
    store := s.sideStoreBack
    link := { s.link with
      accesses := (s.link.accesses.filter fun a => !a.agent.endsAtHalt).filter fun a => !(a.agent == .side) }
    side := { s.side with queue := [], reserved := [], build := none, stopped := false } } := by
  rw [State.haltCommand, State.haltQueues_eq]
  rfl

theorem exec_halt_idle {s : State} (idle : s.control.device = .idle) :
    exec .halt s =
      if s.control.inFlight.isSome then .next (s.haltCommand.notIgnored.complete (some .halt) .ok)
      else .next (s.haltQueues.notIgnored.complete (some .halt) .wrongState) := by
  show execHalt s = _
  simp only [execHalt, idle]

/-- What HALT in STARTING, RUNNING, DRAINING or TESTING leaves in each block. -/
theorem State.haltDevice_values (s : State) :
    s.haltDevice.control = s.haltBlocks.control ∧ s.haltDevice.timer = s.haltBlocks.timer ∧
      s.haltDevice.link.regions = s.link.regions ∧ s.haltDevice.allocator = s.haltBlocks.allocator ∧
      s.haltDevice.recoder = s.haltBlocks.recoder ∧ s.haltDevice.side = s.haltBlocks.side ∧
      s.haltDevice.line = s.haltBlocks.line ∧ s.haltDevice.keys = { s.keys with records := s.haltDevice.keys.records } ∧
      s.haltDevice.reporter = s.haltBlocks.reporter ∧
      s.haltDevice.store = { s.haltBlocks.store with test := s.haltWork.store.test } := by
  obtain ⟨blocks, regions⟩ := s.haltWork_blocks
  have frame := s.haltDevice_frame
  have control : s.haltWork.control = s.haltBlocks.control := (congrArg State.control blocks :)
  have halting : s.haltWork.control.device ≠ .draining := by
    rw [control]
    exact DeviceState.noConfusion
  have rest := frame.rest
  refine ⟨(frame.noNotice halting).trans control, ?_, frame.regions.trans regions, ?_, ?_, ?_, ?_, ?_, ?_, ?_⟩
  · exact (congrArg State.timer rest :).trans (congrArg State.timer blocks :)
  · exact (congrArg State.allocator rest :).trans (congrArg State.allocator blocks :)
  · exact (congrArg State.recoder rest :).trans (congrArg State.recoder blocks :)
  · exact (congrArg State.side rest :).trans (congrArg State.side blocks :)
  · exact (congrArg State.line rest :).trans (congrArg State.line blocks :)
  · have keys : s.haltWork.keys = s.keys := (congrArg State.keys blocks :)
    rw [← keys]
    exact frame.keys
  · exact (congrArg State.reporter rest :).trans (congrArg State.reporter blocks :)
  · exact (congrArg State.store rest :).trans (congrArg State.store blocks :)

theorem filter_not_side (accesses : List Access) :
    (accesses.filter fun a => !(a.agent == .side)) = accesses.filter fun a => a.agent ≠ .side :=
  List.filter_congr fun a _ => by
    by_cases side : a.agent = .side
    · simp [side]
    · simp [side]

theorem State.haltWritesStatus_eq (s : State) : s.haltWritesStatus =
    (decide (s.control.device = .running ∨ s.control.device = .draining) || s.controller.statusSeen) := by
  rw [State.haltWritesStatus, Bool.decide_or]

/-- The device that HALT leaves, with a page under test asked to be the last one. -/
def State.haltEnded (s : State) : State :=
  { s.haltBlocks with store := { s.haltBlocks.store with test := s.store.test.map PageTest.interrupt } }

theorem State.haltWork_of_not_between {s : State} (h : ∀ x, s.store.test = some x → x.phase ≠ .between) :
    s.haltWork = s.haltEnded := by
  rw [State.haltWork, s.haltBlocks.interruptTest_of_not_between fun x test => h x (s.haltBlocks_test.symm.trans test),
    State.haltBlocks_test]
  rfl

theorem State.RecordsTest.of_test {s t : State} {x : PageTest} {y : Option PageTest} (h : s.RecordsTest x t) :
    ({ s with store := { s.store with test := y } } : State).RecordsTest x t := h

theorem State.haltWork_of_between {s : State} {x : PageTest} (test : s.store.test = some x) (phase : x.phase = .between) :
    s.haltEnded.RecordsTest { x with interrupted := true } s.haltWork := by
  rw [State.haltWork, State.interruptTest_of_between (s.haltBlocks_test.trans test) phase]
  exact (s.haltBlocks.testRecord_records _).of_test

/-- Settles O31. -/
theorem haltEndsTheWorkOfEveryBlock : Obligations.HaltEndsTheWorkOfEveryBlock := by
  unfold Obligations.HaltEndsTheWorkOfEveryBlock
  intro s
  refine ⟨exec_halt_halting, fun idle free => ?wrongState, fun c idle busy => ?command, fun halting idle => ?values,
    fun halting idle => ?whole⟩
  case wrongState =>
    rw [exec_halt_idle idle, if_neg (by simp [free]), State.haltQueues_eq, filter_not_side, State.notIgnored_complete]
    · rfl
    · exact free
  case command =>
    refine ⟨_, by rw [exec_halt_idle idle, if_pos (by simp [busy])], ?_, ?_, fun a mem => ?_⟩
    · rw [State.haltCommand_eq]
      rfl
    · rw [State.haltCommand_eq]
      rfl
    · rw [State.haltCommand_eq] at mem
      obtain ⟨mem, -⟩ := List.mem_filter.1 mem
      obtain ⟨mem, stays⟩ := List.mem_filter.1 mem
      refine ⟨mem, ?_, ?_, ?_⟩ <;> rintro ended <;> simp [ended, Agent.endsAtHalt] at stays
  case values =>
    obtain ⟨control, timer, regions, allocator, recoder, side, line, keys, reporter, store⟩ := s.haltDevice_values
    refine ⟨_, exec_halt_device halting idle, control, timer, regions, allocator, recoder, side, ?_⟩
    rw [line, keys, reporter, store]
    exact ⟨rfl, fun p => ⟨by rw [State.haltBlocks, PerProgram.look_fill]; rfl, by rw [State.haltBlocks, PerProgram.look_fill],
      by rw [State.haltBlocks, PerProgram.look_fill]⟩, rfl, rfl, rfl, rfl, rfl, rfl, rfl, s.haltDevice_halt,
      fun ps among n mem => s.returned_storeAtHalt among mem⟩
  case whole =>
    intro jobsBack sideBack allBack ended writes
    have same : ended = s.haltEnded := rfl
    have writes_eq : writes = s.haltWritesStatus := s.haltWritesStatus_eq.symm
    rw [same, writes_eq, exec_halt_device halting idle]
    refine ⟨s.haltWork, State.haltWork_of_not_between, fun x => State.haltWork_of_between, fun i intake finish done => ?_,
      fun none_waits => ?_⟩
    · exact congrArg Host.Outcome.next (State.haltDevice_waits intake (i.phase.waitsForAccess_iff.2 ⟨finish, done⟩))
    · refine congrArg Host.Outcome.next (State.haltDevice_goesOn fun i intake => Bool.eq_false_iff.2 fun waits => ?_)
      obtain ⟨finish, done⟩ := i.phase.waitsForAccess_iff.1 waits
      exact (none_waits i intake).elim finish done

end Sys2Proof.Machine

/-! PROOFS. TEST_PAGES (06, R124 to R127): its start, the verdict on each page, HALT in between, the record and the end. -/

namespace Sys2Proof.Machine

/-! ### The start -/

theorem exec_testPages_idle {s : State} (free : s.control.inFlight = none) (idle : s.control.device = .idle)
    (first count : BitVec 12) :
    exec (.testPages first count) s = .next (State.testRun first.toNat count.toNat (s.accept .testPages)) := by
  show Host.Outcome.next (s.command .testPages _) = _
  rw [State.command_accepted free (by rw [idle]; rfl)]

theorem State.testRun_out_of_range {first : Nat} (h : 2047 < first) (count : Nat) (s : State) :
    s.testRun first count = s.complete (some .testPages) .badOperand := if_pos h

theorem State.testRun_zero {first : Nat} (h : first ≤ 2047) (s : State) :
    s.testRun first 0 = (s.setDevice .testing).testRecord (PageTest.start first 0) := by
  rw [State.testRun, if_neg (by omega), if_pos rfl]

theorem State.testRun_count {first count : Nat} (h : first ≤ 2047) (positive : count ≠ 0) (s : State) :
    s.testRun first count = (s.setDevice .testing).setTest (some (PageTest.start first count)) := by
  rw [State.testRun, if_neg (by omega), if_neg positive]

/-! ### The pages -/

section Test

variable {s : State} {x : PageTest} (test : s.store.test = some x)

include test

theorem exec_pageTested_begins (phase : x.phase = .between) :
    exec (.pageTested .begins) s = .next (s.takePage x x.next) := by
  show execPageTested _ s = _
  simp only [execPageTested, test, phase]

theorem exec_pageTested_ends_between (phase : x.phase = .between) (good : Bool) :
    exec (.pageTested (.ends good)) s = .next ((s.takePage x x.next).judgePage x x.next good) := by
  show execPageTested _ s = _
  simp only [execPageTested, test, phase]

theorem exec_pageTested_ends {page : Nat} {origin : PageOrigin} (phase : x.phase = .pages page origin) (good : Bool) :
    exec (.pageTested (.ends good)) s = .next (s.judgePage x page good) := by
  show execPageTested _ s = _
  simp only [execPageTested, test, phase]

theorem exec_testEnd {r : CmdResult} (phase : x.phase = .ended r) : exec .testEnd s = .next (s.testFinish x r) := by
  show execTestEnd s = _
  simp only [execTestEnd, test, phase]

theorem State.testReply_writing (phase : x.phase = .writing) (r : Reply) :
    s.testReply r = s.setTest (some { x with phase := .ended (x.result r) }) := by
  simp only [State.testReply, test]
  rw [if_pos phase]

end Test

/-- R125: the store after a verdict. -/
theorem Store.verdict_eq (st : Store) (page : Nat) (good : Bool) :
    st.verdict page good = { st with
      cells := st.cells.clearPages [page]
      free := if good then st.free ++ [page] else st.free
      retired := if good then st.retired else insertPage page st.retired } := by
  cases good
  · rfl
  · rfl

theorem PageTest.count_eq (x : PageTest) (page : Nat) (good : Bool) :
    x.count page good = { x with
      tested := x.tested + 1, usable := x.usable + (if good then 1 else 0)
      retired := x.retired + (if good then 0 else 1), next := page + 1 } := by
  cases good
  · rfl
  · rfl

theorem State.judgePage_next {x : PageTest} {page : Nat} (running : x.interrupted = false) (more : page < x.last) (s : State)
    (good : Bool) : s.judgePage x page good =
      { s with store := { s.store.verdict page good with test := some { x.count page good with phase := .between } } } := by
  have goes_on : ¬ (x.interrupted || decide (x.last ≤ page)) = true := by simp [running, more]
  rw [State.judgePage, if_neg goes_on]
  rfl

theorem State.judgePage_last {x : PageTest} {page : Nat} (last : x.interrupted = true ∨ x.last ≤ page) (s : State)
    (good : Bool) : s.judgePage x page good =
      ({ s with store := s.store.verdict page good } : State).testRecord (x.count page good) := by
  have ends : (x.interrupted || decide (x.last ≤ page)) = true := by simpa using last
  rw [State.judgePage, if_pos ends]
  rfl

/-- R125: after a verdict no place of the page reads anything. -/
theorem read_clearPages_page (m : CellMemory) (page : Nat) {place : Nat} (h : place < 20) :
    CellMemory.read (m.clearPages [page]) (placeIndex page place) = none := by
  rw [CellMemory.read_clearPages, if_pos]
  rw [pageOfPlace_placeIndex page h]
  exact List.mem_singleton_self page

/-! ### HALT during a test -/

/-- While TEST_PAGES is in flight no HALT that finds a test under way loses what it leaves of it. -/
theorem State.haltDevice_test (s : State) : s.haltDevice.store.test = s.haltWork.store.test := by
  obtain ⟨-, -, -, -, -, -, -, -, -, store⟩ := s.haltDevice_values
  rw [store]

theorem exec_halt_testing {s : State} (testing : s.control.device = .testing) : exec .halt s = .next s.haltDevice :=
  exec_halt_device (by simp [testing]) (by simp [testing])

/-! ### The end -/

/-- Settles O36. -/
theorem pageTestGivesEveryPageItsVerdict : Obligations.PageTestGivesEveryPageItsVerdict := by
  unfold Obligations.PageTestGivesEveryPageItsVerdict
  refine ⟨fun first count s free idle => ⟨fun beyond => ?beyond, fun within => ?starts⟩,
    fun s x test phase => ⟨?begins, fun t begun good => ?whole, fun testing => ?haltBetween⟩,
    fun s x page origin test phase => ⟨fun good => ⟨fun running more => ?next, fun last => ?record⟩, fun p => mem_insertPage,
      fun place h => read_clearPages_page _ _ h, fun testing => ?haltUnder⟩,
    fun s x pre post a data test phase inFlight before behind agent => ⟨fun write => ?written, fun c bus => ?failed⟩,
    fun s x r test phase => ⟨fun testing => ?ends, fun halting stopped => ?endsStopped, fun halting running => ?endsAlone⟩⟩
  case beyond =>
    rw [exec_testPages_idle free idle, State.testRun_out_of_range beyond]
    exact congrArg Host.Outcome.next (State.notIgnored_complete free (some .testPages) .badOperand)
  case starts =>
    refine ⟨_, PageTest.start first.toNat count.toNat, exec_testPages_idle free idle first count, rfl, rfl, rfl, rfl, rfl, rfl,
      fun positive => ⟨rfl, ?_⟩, fun zero => ?_⟩
    · rw [State.testRun_count within (fun zero => positive (BitVec.eq_of_toNat_eq zero))]
      rfl
    · subst zero
      exact State.testRun_zero within (s.accept .testPages) ▸ State.testRecord_records _ _
  case begins =>
    refine ⟨if s.store.retired.contains x.next then .retired else .free, ?_, exec_pageTested_begins test phase⟩
    rw [← List.contains_iff_mem]
    split
    next taken => exact ⟨fun _ => taken, fun _ => rfl⟩
    next untaken => exact ⟨fun h => PageOrigin.noConfusion h, fun taken => absurd taken untaken⟩
  case whole =>
    rw [exec_pageTested_begins test phase] at begun
    injection begun with begun
    subst begun
    rw [exec_pageTested_ends_between test phase]
    exact (exec_pageTested_ends (s := s.takePage x x.next) rfl rfl good).symm
  case haltBetween =>
    obtain ⟨aligned, misaligned⟩ := State.haltWork_of_between test phase
    refine ⟨_, exec_halt_testing testing, fun h => ⟨?_, ?_⟩, fun h => ?_⟩
    · rw [s.haltDevice_test, aligned h]
    · refine s.haltDevice_frame.accesses.subset ?_
      rw [aligned h]
      exact List.mem_append_right _ (List.mem_singleton_self _)
    · rw [s.haltDevice_test, misaligned h]
  case next =>
    rw [exec_pageTested_ends test phase, State.judgePage_next running more, Store.verdict_eq, PageTest.count_eq]
  case record =>
    refine ⟨_, exec_pageTested_ends test phase good, ?_⟩
    rw [State.judgePage_last last, Store.verdict_eq, PageTest.count_eq]
    exact State.testRecord_records _ _
  case haltUnder =>
    refine ⟨_, exec_halt_testing testing, ?_⟩
    have under : ∀ y, s.store.test = some y → y.phase ≠ .between := by
      intro y same
      cases test.symm.trans same
      simp [phase]
    rw [s.haltDevice_test, State.haltWork_of_not_between under]
    simp only [State.haltEnded, test, Option.map_some, PageTest.interrupt, phase]
  case written =>
    rw [exec_accessCompletion_write inFlight before behind write, agent]
    exact congrArg Host.Outcome.next
      (State.testReply_writing (s := s.setLink { s.link with accesses := pre ++ post }) test phase (.done []))
  case failed =>
    rw [exec_busEnd inFlight before behind bus, agent]
    exact congrArg Host.Outcome.next
      (State.testReply_writing (s := s.setLink { s.link with accesses := pre ++ post }) test phase (.failed a.busFailure))
  case ends =>
    rw [exec_testEnd test phase, State.testFinish, if_neg (by simp [testing])]
    rfl
  case endsStopped =>
    rw [exec_testEnd test phase, State.testFinish, if_pos halting, if_pos stopped]
    rfl
  case endsAlone =>
    rw [exec_testEnd test phase, State.testFinish, if_pos halting, if_neg (by simp [running])]
    rfl

end Sys2Proof.Machine

/-! PROOFS. HALT's visit of the windows and HALT_COMPLETE (01, R13, R15; 10, R177). -/

namespace Sys2Proof.Machine

variable {s t u : State} {p q : Program} {i k : Nat}

/-! ### The names of an abandonment, one at a time -/

theorem outcomeBytes_length (o : Outcome) (pass size cells meanQ : Nat) (interval : Word) (sides : List SlotSide) :
    (outcomeBytes o pass size cells meanQ interval sides).length = 24 := by
  simp only [outcomeBytes, dispositionBytes, List.length_append, leBytes_length, zeros, List.length_replicate,
    List.length_map, List.length_range]

/-- R13: the write of ABANDONED to the outcome fields of the picture at a window name. -/
def State.abandonWrite (s : State) (agent : Agent) (p : Program) (k : Nat) : Request :=
  { agent := agent, kind := .write, addr := ((s.ctx p).window.named k).record + 0x30, length := 24
    key := some (s.ctx p).fixed.accessKey
    data := outcomeBytes .abandoned 0 0 0 0 s.timer.number ((s.ctx p).window.named k).sides }

theorem State.issueRecord_abandon (s : State) (agent : Agent) (p : Program) (k : Nat) :
    s.issueRecord agent p ((s.ctx p).window.named k).record 0x30
        (outcomeBytes .abandoned 0 0 0 0 s.timer.number ((s.ctx p).window.named k).sides) =
      s.issue (s.abandonWrite agent p k) := by
  rw [State.issueRecord, writeRequest, outcomeBytes_length]
  rfl

section Names

variable {agent : Agent} {note : State → State}

theorem State.abandonFrom_done (past : (s.ctx p).window.count ≤ i) (fuel : Nat) :
    s.abandonFrom agent note p fuel i = (s, .finished) := by
  cases fuel with
  | zero => rfl
  | succ fuel => rw [State.abandonFrom, if_pos past]

variable (valid : i < (s.ctx p).window.count)

include valid

theorem State.abandonFrom_faulted (faulted : ((s.ctx p).window.named i).faulted = true) (fuel : Nat) :
    s.abandonFrom agent note p (fuel + 1) i = s.abandonFrom agent note p fuel (i + 1) := by
  rw [State.abandonFrom, if_neg (Nat.not_le.2 valid), if_pos faulted]

variable (unfaulted : ((s.ctx p).window.named i).faulted = false)

include unfaulted

theorem State.abandonFrom_of_ok {region : Byte}
    (passes : checkAccess s.link.regions (s.abandonWrite agent p i) = .ok region) (fuel : Nat) :
    s.abandonFrom agent note p (fuel + 1) i = ((s.issue (s.abandonWrite agent p i)).1, .outcome i) := by
  rw [State.abandonFrom, if_neg (Nat.not_le.2 valid), if_neg (by simp [unfaulted]), State.issueRecord_abandon,
    State.issue_of_ok passes]

theorem State.abandonFrom_of_error {e : AccessResult × Byte}
    (refused : checkAccess s.link.regions (s.abandonWrite agent p i) = .error e) (fuel : Nat) :
    s.abandonFrom agent note p (fuel + 1) i = (note s).abandonFrom agent note p fuel (i + 1) := by
  rw [State.abandonFrom, if_neg (Nat.not_le.2 valid), if_neg (by simp [unfaulted]), State.issueRecord_abandon,
    State.issue_of_error (result := e.1) (region := e.2) refused]

end Names

/-! ### HALT's visit of one window -/

theorem State.abandonNoted_idem (s : State) (p : Program) : (s.abandonNoted p).abandonNoted p = s.abandonNoted p := by
  have twice := s.controller.notes.modify_modify p (fun n => { n with abandonWriteFault := true })
    fun n => { n with abandonWriteFault := true }
  exact congrArg (fun notes => ({ s with controller := { s.controller with notes := notes } } : State)) twice

/-- A visit that left the names from i to k behind has noted a refused write, or met FAULTED records alone. -/
def State.NotedPast (s : State) (p : Program) (i k : Nat) (u : State) : Prop :=
  ((∃ n, i ≤ n ∧ n < k ∧ ((s.ctx p).window.named n).faulted = false) → u = s.abandonNoted p) ∧
    ((∀ n, i ≤ n → n < k → ((s.ctx p).window.named n).faulted = true) → u = s)

theorem State.NotedPast.refl (s : State) (p : Program) {i k : Nat} (h : k ≤ i) : s.NotedPast p i k s :=
  ⟨fun ⟨_, above, below, _⟩ => absurd (Nat.lt_of_le_of_lt above below) (Nat.not_lt.2 h), fun _ => rfl⟩

theorem State.NotedPast.cases (h : s.NotedPast p i k u) : u = s ∨ u = s.abandonNoted p := by
  by_cases all : ∀ n, i ≤ n → n < k → ((s.ctx p).window.named n).faulted = true
  · exact .inl (h.2 all)
  · push Not at all
    obtain ⟨n, above, below, unfaulted⟩ := all
    exact .inr (h.1 ⟨n, above, below, by simpa using unfaulted⟩)

theorem State.NotedPast.of_faulted (faulted : ((s.ctx p).window.named i).faulted = true) (h : s.NotedPast p (i + 1) k u) :
    s.NotedPast p i k u := by
  refine ⟨fun ⟨n, above, below, unfaulted⟩ => h.1 ⟨n, ?_, below, unfaulted⟩, fun all => h.2 fun n above => all n (Nat.le_of_succ_le above)⟩
  refine Nat.lt_of_le_of_ne above fun same => ?_
  rw [← same, faulted] at unfaulted
  cases unfaulted

theorem State.NotedPast.of_refused (unfaulted : ((s.ctx p).window.named i).faulted = false) (before : i < k)
    (h : (s.abandonNoted p).NotedPast p (i + 1) k u) : s.NotedPast p i k u := by
  have noted : u = s.abandonNoted p := h.cases.elim id fun again => again.trans (s.abandonNoted_idem p)
  refine ⟨fun _ => noted, fun all => ?_⟩
  rw [all i le_rfl before] at unfaulted
  cases unfaulted

/-- How a visit of a window from a name on ends: with the write to the first name that is not left behind, or behind the last one. -/
def State.Visits (s : State) (p : Program) (i : Nat) (x : State × AbandonWait) : Prop :=
  (∀ k region, i ≤ k → k < (s.ctx p).window.count → (∀ n, i ≤ n → n < k → s.PassedOver p n) →
    ((s.ctx p).window.named k).faulted = false → checkAccess s.link.regions (s.abandonRequest p k) = .ok region →
    ∃ u, s.NotedPast p i k u ∧ x = ((u.issue (s.abandonRequest p k)).1, .outcome k)) ∧
  ((∀ n, i ≤ n → n < (s.ctx p).window.count → s.PassedOver p n) →
    ∃ u, s.NotedPast p i (s.ctx p).window.count u ∧ x = (u, .finished))

/-- The fuel of a visit covers the names that a window can have. -/
theorem State.abandonFrom_visits (p : Program) (fuel : Nat) : ∀ (i : Nat) (s : State), (s.ctx p).window.count ≤ i + fuel →
    s.Visits p i (s.abandonFrom .halt (State.haltNote p) p fuel i) := by
  induction fuel with
  | zero =>
    intro i s bound
    exact ⟨fun k _ above below => absurd (Nat.lt_of_le_of_lt above below) (Nat.not_lt.2 bound),
      fun _ => ⟨s, State.NotedPast.refl s p bound, rfl⟩⟩
  | succ fuel ih =>
    intro i s bound
    by_cases past : (s.ctx p).window.count ≤ i
    · rw [State.abandonFrom_done past]
      exact ⟨fun k _ above below => absurd (Nat.lt_of_le_of_lt above below) (Nat.not_lt.2 past),
        fun _ => ⟨s, State.NotedPast.refl s p past, rfl⟩⟩
    have valid := Nat.lt_of_not_le past
    cases faulted : ((s.ctx p).window.named i).faulted with
    | true =>
      obtain ⟨writes, finishes⟩ := ih (i + 1) s (by omega)
      rw [State.abandonFrom_faulted valid faulted]
      refine ⟨fun k region above below passed unfaulted passes => ?_, fun passed => ?_⟩
      · have behind : i + 1 ≤ k := Nat.lt_of_le_of_ne above fun same => by
          rw [← same, faulted] at unfaulted
          cases unfaulted
        obtain ⟨u, noted, result⟩ := writes k region behind below (fun n h => passed n (Nat.le_of_succ_le h)) unfaulted passes
        exact ⟨u, noted.of_faulted faulted, result⟩
      · obtain ⟨u, noted, result⟩ := finishes fun n h => passed n (Nat.le_of_succ_le h)
        exact ⟨u, noted.of_faulted faulted, result⟩
    | false =>
      match access : checkAccess s.link.regions (s.abandonRequest p i) with
      | .ok region =>
        rw [State.abandonFrom_of_ok valid faulted access]
        have stops : ¬ s.PassedOver p i := by
          rintro (marked | ⟨e, refused⟩)
          · cases faulted.symm.trans marked
          · cases access.symm.trans refused
        refine ⟨fun k region above below passed unfaulted passes => ?_, fun passed => absurd (passed i le_rfl valid) stops⟩
        have here : i = k := Nat.le_antisymm above (Nat.le_of_not_lt fun behind => stops (passed i le_rfl behind))
        subst here
        exact ⟨s, State.NotedPast.refl s p le_rfl, rfl⟩
      | .error e =>
        obtain ⟨writes, finishes⟩ := ih (i + 1) (s.abandonNoted p) (by exact (by omega : (s.ctx p).window.count ≤ i + 1 + fuel))
        rw [State.abandonFrom_of_error valid faulted access]
        refine ⟨fun k region above below passed unfaulted passes => ?_, fun passed => ?_⟩
        · have behind : i + 1 ≤ k := Nat.lt_of_le_of_ne above fun same => by
            rw [← same] at passes
            cases access.symm.trans passes
          obtain ⟨u, noted, result⟩ :=
            writes k region behind below (fun n h => passed n (Nat.le_of_succ_le h)) unfaulted passes
          exact ⟨u, noted.of_refused faulted behind, result⟩
        · obtain ⟨u, noted, result⟩ := finishes fun n h => passed n (Nat.le_of_succ_le h)
          exact ⟨u, noted.of_refused faulted valid, result⟩

/-! ### From one program to the next -/

theorem State.noticeIfAllOff_of_not_draining (h : s.control.device ≠ .draining) : s.noticeIfAllOff = s :=
  if_neg fun draining => h draining.1

/-- R13, R36: behind the last name the window is empty, the program OFF and its parity record not in force. -/
theorem State.endAbandon_eq (h : s.control.device ≠ .draining) (p : Program) : s.endAbandon p = { s with
    controller := { s.controller with
      programs := s.controller.programs.modify p fun c => { c with state := .off, window := { c.window with count := 0 } } }
    keys := { s.keys with
      records := s.keys.records.modify p fun r => { r with inForce := false, pending := none, switchHeld := false } } } := by
  rw [State.endAbandon, State.programOff, State.noticeIfAllOff_of_not_draining (by exact h)]
  have twice := s.controller.programs.modify_modify p (fun c => { c with window := { c.window with count := 0 } })
    fun c => { c with state := .off }
  exact congrArg (fun programs => ({ s with
    controller := { s.controller with programs := programs }
    keys := { s.keys with records := s.keys.records.modify p ParityRecord.offed } } : State)) twice

theorem State.haltAdvance_cons (writesStatus : Bool) (p : Program) (rest : List Program) (s : State) :
    State.haltAdvance writesStatus (p :: rest) s =
      if (s.ctx p).state = .off then State.haltAdvance writesStatus rest s
      else if (s.ctx p).finish.isSome then s.setHalt (.waitFinish (p :: rest) writesStatus)
      else State.haltAfter p rest writesStatus (s.abandonFrom .halt (State.haltNote p) p 4 0) := by
  rw [State.haltAdvance]
  rfl

theorem State.haltAfter_visits (halting : s.control.device = .halting) (rest : List Program) (writesStatus : Bool)
    {x : State × AbandonWait} (h : s.Visits p i x) : s.HaltVisits writesStatus p rest i (State.haltAfter p rest writesStatus x) := by
  refine ⟨fun k region above below passed unfaulted passes => ?_, fun passed => ?_⟩
  · obtain ⟨u, noted, rfl⟩ := h.1 k region above below passed unfaulted passes
    refine ⟨u, noted, ?_⟩
    have link : u.link = s.link := by
      obtain rfl | rfl := noted.cases
      · rfl
      · rfl
    rw [← link] at passes ⊢
    rw [State.issue_of_ok passes]
    rfl
  · obtain ⟨u, noted, rfl⟩ := h.2 passed
    refine ⟨u, noted, ?_⟩
    obtain rfl | rfl := noted.cases
    · exact congrArg (State.haltAdvance writesStatus rest) (State.endAbandon_eq (by simp [halting]) p)
    · exact congrArg (State.haltAdvance writesStatus rest) (State.endAbandon_eq (s := s.abandonNoted p)
        (by exact (by simp [halting] : s.control.device ≠ .draining)) p)

/-! ### The programs that HALT leaves -/

theorem State.abandonFrom_programs (agent : Agent) (p : Program) : ∀ (fuel i : Nat) (s : State),
    (s.abandonFrom agent (State.haltNote p) p fuel i).1.controller.programs = s.controller.programs := by
  intro fuel
  induction fuel with
  | zero => exact fun _ _ => rfl
  | succ fuel ih =>
    intro i s
    by_cases past : (s.ctx p).window.count ≤ i
    · rw [State.abandonFrom_done past]
    have valid := Nat.lt_of_not_le past
    cases faulted : ((s.ctx p).window.named i).faulted with
    | true => rw [State.abandonFrom_faulted valid faulted, ih]
    | false =>
      match access : checkAccess s.link.regions (s.abandonWrite agent p i) with
      | .ok region => rw [State.abandonFrom_of_ok valid faulted access, State.issue_controller]
      | .error e =>
        rw [State.abandonFrom_of_error valid faulted access, ih]
        rfl

theorem State.endAbandon_programs (s : State) (p : Program) :
    (s.endAbandon p).controller.programs =
      s.controller.programs.modify p fun c => { c with state := .off, window := { c.window with count := 0 } } := by
  have twice := s.controller.programs.modify_modify p (fun c => { c with window := { c.window with count := 0 } })
    fun c => { c with state := .off }
  rw [← twice, State.endAbandon, State.programOff, State.noticeIfAllOff]
  split
  · rfl
  · rfl

/-- R15: once HALT's visit has come to the status parts every program is OFF, and the visited windows are empty. -/
theorem State.haltAdvance_leavesOff (writesStatus : Bool) : ∀ (todo : List Program) (s : State),
    (∀ p, p ∉ todo → (s.ctx p).state = .off) →
    (State.haltAdvance writesStatus todo s).controller.halt = some .status ∨
      (State.haltAdvance writesStatus todo s).controller.halt = some .done →
    ∀ p, ((State.haltAdvance writesStatus todo s).ctx p).state = .off ∧
      ((s.ctx p).state ≠ .off → ((State.haltAdvance writesStatus todo s).ctx p).window.count = 0) := by
  intro todo
  induction todo with
  | nil =>
    intro s others _ p
    have off := others p List.not_mem_nil
    have same : (State.haltAdvance writesStatus [] s).controller.programs = s.controller.programs := by
      rw [State.haltAdvance]
      split
      · exact State.startStatus_programs _
      · rfl
    rw [State.ctx, same]
    exact ⟨off, fun on => absurd off on⟩
  | cons p rest ih =>
    intro s others
    rw [State.haltAdvance_cons]
    split
    next off =>
      refine fun ended => ih s (fun q outside => ?_) ended
      by_cases same : q = p
      · exact same ▸ off
      · exact others q (by simp [same, outside])
    · split
      · intro ended
        simp [State.setHalt] at ended
      · have programs := State.abandonFrom_programs .halt p 4 0 s
        generalize s.abandonFrom .halt (State.haltNote p) p 4 0 = x at programs
        match x with
        | (u, .outcome k) =>
          intro ended
          simp [State.haltAfter, State.setHalt] at ended
        | (u, .state k) =>
          intro ended
          simp [State.haltAfter, State.setHalt] at ended
        | (u, .finished) =>
          have left : ∀ q, (u.endAbandon p).ctx q =
              if q = p then { s.ctx p with state := .off, window := { (s.ctx p).window with count := 0 } } else s.ctx q := by
            intro q
            rw [State.ctx, State.endAbandon_programs, show u.controller.programs = _ from programs]
            by_cases same : q = p
            · rw [if_pos same, same, PerProgram.look_modify_same]
              rfl
            · rw [if_neg same, PerProgram.look_modify_ne _ same]
              rfl
          refine fun ended q => ?_
          have stillOff : ∀ q, q ∉ rest → ((u.endAbandon p).ctx q).state = .off := by
            intro q outside
            rw [left q]
            split
            next => rfl
            next other => exact others q (by simp [other, outside])
          obtain ⟨off, empty⟩ := ih (u.endAbandon p) stillOff ended q
          refine ⟨off, fun on => ?_⟩
          by_cases same : q = p
          · have fewer := (Shrinks.haltAdvance writesStatus rest (Shrinks.refl (u.endAbandon p))).counts q
            rw [left q, if_pos same] at fewer
            exact Nat.le_zero.1 fewer
          · rw [left q, if_neg same] at empty
            exact empty on

/-! ### The ends of a visit's writes -/

theorem exec_haltComplete {s : State} (reached : s.haltReached = true) : exec .haltComplete s = .next s.haltFinish :=
  if_pos reached

section Replies

variable {rest : List Program} {w : Bool}

theorem State.haltReply_outcome (h : s.controller.halt = some (.outcome (p :: rest) i w)) (r : Reply) :
    s.haltReply r = State.haltAfter p rest w (s.abandonReply .halt (State.haltNote p) p false i r) := by
  simp only [State.haltReply, h]

theorem State.haltReply_state (h : s.controller.halt = some (.state (p :: rest) i w)) (r : Reply) :
    s.haltReply r = State.haltAfter p rest w (s.abandonReply .halt (State.haltNote p) p true i r) := by
  simp only [State.haltReply, h]

end Replies

section Abandon

variable {agent : Agent} {note : State → State}

theorem State.abandonReply_state (data : List Byte) :
    s.abandonReply agent note p true i (.done data) = s.abandonFrom agent note p 4 (i + 1) := rfl

/-- R13: the outcome fields are written; DONE follows. -/
theorem State.abandonReply_outcome_of_ok {region : Byte}
    (passes : checkAccess s.link.regions
      (writeRequest agent (some (s.ctx p).fixed.accessKey) ((s.ctx p).window.named i).record [doneCode]) = .ok region)
    (data : List Byte) : s.abandonReply agent note p false i (.done data) =
      ((s.issue
        (writeRequest agent (some (s.ctx p).fixed.accessKey) ((s.ctx p).window.named i).record [doneCode])).1, .state i) := by
  rw [State.abandonReply, if_neg Bool.false_ne_true, State.issueRecord_zero, State.issue_of_ok passes]

theorem State.abandonReply_outcome_of_error {e : AccessResult × Byte}
    (refused : checkAccess s.link.regions
      (writeRequest agent (some (s.ctx p).fixed.accessKey) ((s.ctx p).window.named i).record [doneCode]) = .error e)
    (data : List Byte) : s.abandonReply agent note p false i (.done data) =
      (note s).abandonFrom agent note p 4 (i + 1) := by
  rw [State.abandonReply, if_neg Bool.false_ne_true, State.issueRecord_zero,
    State.issue_of_error (result := e.1) (region := e.2) refused]

end Abandon

theorem State.haltFinish_eq (s : State) : s.haltFinish = { s with
    controller := { s.controller with halt := none }
    control := { s.control with
      device := .idle, inFlight := none, endedTest := none
      last := if s.control.endedTest = none then some .halt else some .testPages
      result := s.control.endedTest.getD .ok, events := s.control.events ||| 1
      line := ((s.control.events ||| 1) &&& s.control.enable) != 0 } } := by
  unfold State.haltFinish
  match ended : s.control.endedTest with
  | none => rfl
  | some r => rfl

theorem State.finishEnded_waitFinish {w : Bool} {todo : List Program} (h : s.controller.halt = some (.waitFinish todo w))
    (p : Program) : s.finishEnded p = State.haltAdvance w todo { s with controller := { s.controller with
      programs := s.controller.programs.modify p fun c => { c with finish := none } } } := by
  have same : (s.setFinish p none).controller.halt = some (.waitFinish todo w) := h
  simp only [State.finishEnded, same]
  rfl

/-- Settles O32. -/
theorem haltCompletes : Obligations.HaltCompletes := by
  unfold Obligations.HaltCompletes
  refine ⟨fun s device done queue work test => ?complete, fun s => ⟨rfl, rfl⟩, fun s w p rest => ⟨fun off => ?off,
    fun on finish => ?waits, fun halting on finish bound => ?visits⟩, fun s w todo p waits => State.finishEnded_waitFinish waits p,
    fun s pre post a data p rest i w inFlight before behind agent write halting bound => ?replies,
    fun s w todo others => State.haltAdvance_leavesOff w todo s others⟩
  case complete =>
    rw [exec_haltComplete (by simp [State.haltReached, device, done, queue, work, test]), State.haltFinish_eq]
  case off => rw [State.haltAdvance_cons, if_pos off]
  case waits =>
    rw [State.haltAdvance_cons, if_neg on, if_pos (Option.isSome_iff_ne_none.2 finish)]
    rfl
  case visits =>
    rw [State.haltAdvance_cons, if_neg on, if_neg (by simp [finish])]
    exact State.haltAfter_visits halting rest w (State.abandonFrom_visits p 4 0 s (by omega))
  case replies =>
    intro after done
    have visits : ∀ u : State, u.control.device = .halting → (u.ctx p).window.count ≤ 4 →
        u.HaltVisits w p rest (i + 1) (State.haltAfter p rest w (u.abandonFrom .halt (State.haltNote p) p 4 (i + 1))) :=
      fun u device few => State.haltAfter_visits device rest w (State.abandonFrom_visits p 4 (i + 1) u (by omega))
    refine ⟨fun phase => ⟨fun region passes => ?_, fun e refused => ?_⟩, fun phase => ?_, fun phase c bus => ?_⟩
    · rw [exec_accessCompletion_write inFlight before behind write, agent]
      refine congrArg Host.Outcome.next ((State.haltReply_outcome (s := after) phase _).trans ?_)
      rw [State.abandonReply_outcome_of_ok (s := after) passes, State.issue_of_ok]
      · rfl
      · exact passes
    · refine ⟨_, exec_accessCompletion_write inFlight before behind write data, ?_⟩
      rw [agent]
      show State.HaltVisits _ w p rest (i + 1) (after.haltReply (.done []))
      rw [State.haltReply_outcome (s := after) phase, State.abandonReply_outcome_of_error (s := after) refused]
      exact visits (after.abandonNoted p) halting bound
    · refine ⟨_, exec_accessCompletion_write inFlight before behind write data, ?_⟩
      rw [agent]
      show State.HaltVisits _ w p rest (i + 1) (after.haltReply (.done []))
      rw [State.haltReply_state (s := after) phase]
      exact visits after halting bound
    · refine ⟨_, exec_busEnd inFlight before behind bus, ?_⟩
      rw [agent]
      show State.HaltVisits _ w p rest (i + 1) (after.haltReply (.failed a.busFailure))
      obtain outcome | state := phase
      · rw [State.haltReply_outcome (s := after) outcome]
        exact visits (after.abandonNoted p) halting bound
      · rw [State.haltReply_state (s := after) state]
        exact visits (after.abandonNoted p) halting bound

end Sys2Proof.Machine

/-! PROOFS. The handling of finish reports and content fault reports (01, R22, R23; 02, R35, R37, R39). -/

namespace Sys2Proof.Machine

variable {s : State} {p : Program} {r : Report}

/-! ### Which reports match -/

theorem Window.named_zero (w : Window) : w.named 0 = w.slots[w.head] := by
  simp [Window.named, Window.slotIndex]

/-- R13: the program that an abandonment at intake is at. -/
theorem State.abandoning_eq_false_iff (s : State) (p : Program) : s.abandoning p = false ↔
    (∀ i k, s.controller.intake = some i → i.program = p → i.phase ≠ .abandonOutcome k ∧ i.phase ≠ .abandonState k) ∧
      ∀ rest k x, s.controller.halt ≠ some (.outcome (p :: rest) k x) ∧ s.controller.halt ≠ some (.state (p :: rest) k x) := by
  unfold State.abandoning
  rw [Bool.or_eq_false_iff]
  refine and_congr ?_ ?_
  · match s.controller.intake with
    | none => simp
    | some i =>
      have at_i : (∀ j k, some i = some j → j.program = p → j.phase ≠ .abandonOutcome k ∧ j.phase ≠ .abandonState k) ↔
          ∀ k, i.program = p → i.phase ≠ .abandonOutcome k ∧ i.phase ≠ .abandonState k :=
        ⟨fun h k => h i k rfl, fun h j k same => Option.some.inj same ▸ h k⟩
      rw [at_i]
      cases phase : i.phase <;> simp [phase]
  · match s.controller.halt with
    | some (.outcome (q :: rest) k x) =>
      rw [beq_eq_false_iff_ne]
      exact ⟨fun other rest' k' x' => by simp [other], fun h same => (h rest k x).1 (by rw [same])⟩
    | some (.state (q :: rest) k x) =>
      rw [beq_eq_false_iff_ne]
      exact ⟨fun other rest' k' x' => by simp [other], fun h same => (h rest k x).2 (by rw [same])⟩
    | some (.outcome [] k x) => simp
    | some (.state [] k x) => simp
    | some (.waitIntake x) => simp
    | some (.waitFinish todo x) => simp
    | some .status => simp
    | some .done => simp
    | none => simp

theorem State.reportMatches_iff (s : State) (r : Report) : s.reportMatches r = true ↔
    1 ≤ (s.ctx r.program).window.count ∧ (s.ctx r.program).window.head = r.slot ∧
      ((s.ctx r.program).window.named 0).takeNumber = r.takeNumber ∧ s.abandoning r.program = false := by
  simp only [State.reportMatches, Bool.and_eq_true, decide_eq_true_eq, beq_iff_eq, Bool.not_eq_true', and_assoc]

/-! ### The report that the controller takes -/

theorem takeReport_split {q : Report → Bool} {pre post : List Report} (earlier : ∀ x ∈ pre, q x = false) (named : q r = true) :
    takeReport q (pre ++ r :: post) = some (r, pre ++ post) := by
  induction pre with
  | nil => exact if_pos named
  | cons x rest ih =>
    rw [List.forall_mem_cons] at earlier
    rw [List.cons_append, takeReport, if_neg (by simp [earlier.1]), ih earlier.2]
    rfl

theorem State.takeReportOf_split {q : Report → Bool} {pre post : List Report} (reports : s.controller.reports = pre ++ r :: post)
    (free : (s.ctx p).finish = none) (earlier : ∀ x ∈ pre, q x = false) (named : q r = true) :
    s.takeReportOf p q = ({ s with controller := { s.controller with reports := pre ++ post } } : State).handleReport r := by
  simp only [State.takeReportOf, free, reports, takeReport_split earlier named]
  rfl

theorem Report.isFinish_of_body {o : Outcome} {pass size cells meanQ debt : Nat}
    (body : r.body = .finish o pass size cells meanQ debt) : r.isFinish r.program = true := by
  simp [Report.isFinish, body]

theorem Report.isFault_of_body {f : Failure} {pass : Nat} (body : r.body = .fault f pass) : r.isFault r.program = true := by
  simp [Report.isFault, body]

theorem State.handleReport_discards (h : s.reportMatches r = false) : s.handleReport r = s :=
  if_neg (by simp [h])

theorem State.handleReport_finish {o : Outcome} {pass size cells meanQ debt : Nat}
    (body : r.body = .finish o pass size cells meanQ debt) (h : s.reportMatches r = true) :
    s.handleReport r = s.finishOutcomeWrite r o pass size cells meanQ := by
  rw [State.handleReport, if_pos h, body]

theorem State.handleReport_fault {f : Failure} {pass : Nat} (body : r.body = .fault f pass) (h : s.reportMatches r = true) :
    s.handleReport r = s.strictWrite r f pass := by
  rw [State.handleReport, if_pos h, body]

/-! ### The first write of a handling -/

theorem State.issueRecord_finishAt_outcome (s : State) (r : Report) (phase : FinishPhase) (data : List Byte) :
    (s.finishAt r phase).issueRecord (.finish r.program) r.program ((s.ctx r.program).window.named 0).record 0x30 data =
      (s.finishAt r phase).issue (writeRequest (.finish r.program) (some (s.ctx r.program).fixed.accessKey)
        (((s.ctx r.program).window.named 0).record + 0x30) data) := by
  rw [State.issueRecord, State.finishAt_ctx]
  rfl

section Writes

variable {region : Byte} {result : AccessResult}

section Outcome

variable {o : Outcome} {pass size cells meanQ : Nat}

theorem State.finishOutcomeWrite_of_ok
    (passes : checkAccess s.link.regions (writeRequest (.finish r.program) (some (s.ctx r.program).fixed.accessKey)
      (((s.ctx r.program).window.named 0).record + 0x30)
      (outcomeBytes o pass size cells meanQ r.interval ((s.ctx r.program).window.named 0).sides)) = .ok region) :
    s.finishOutcomeWrite r o pass size cells meanQ = { s.finishAt r .outcome with
      link := { s.link with
        accesses := s.link.accesses ++
          [{ tag := s.link.nextTag, agent := .finish r.program, kind := .write
             addr := ((s.ctx r.program).window.named 0).record + 0x30
             length := (outcomeBytes o pass size cells meanQ r.interval ((s.ctx r.program).window.named 0).sides).length
             key := some (s.ctx r.program).fixed.accessKey, region := region
             data := outcomeBytes o pass size cells meanQ r.interval ((s.ctx r.program).window.named 0).sides }]
        nextTag := s.link.nextTag + 1 } } := by
  rw [State.finishOutcomeWrite, State.setFinish_eq, State.issueRecord_finishAt_outcome, State.issue_of_ok]
  · rfl
  · exact passes

theorem State.finishOutcomeWrite_of_error
    (refused : checkAccess s.link.regions (writeRequest (.finish r.program) (some (s.ctx r.program).fixed.accessKey)
      (((s.ctx r.program).window.named 0).record + 0x30)
      (outcomeBytes o pass size cells meanQ r.interval ((s.ctx r.program).window.named 0).sides)) = .error (result, region)) :
    s.finishOutcomeWrite r o pass size cells meanQ = (s.finishAt r .outcome).finishFailed r
      { result := result, region := region, kind := .write, addr := ((s.ctx r.program).window.named 0).record + 0x30
        length := 24 } := by
  rw [State.finishOutcomeWrite, State.setFinish_eq, State.issueRecord_finishAt_outcome,
    State.issue_of_error (result := result) (region := region) (by exact refused)]
  simp only [Request.failure, writeRequest, outcomeBytes_length]

end Outcome

theorem State.strictWrite_of_ok {f : Failure} {pass : Nat}
    (passes : checkAccess s.link.regions (s.stateRequest r faultedCode) = .ok region) :
    s.strictWrite r f pass = s.writesState r .strict faultedCode region := by
  rw [State.strictWrite, State.setFinish_eq, State.issueRecord_finishAt, State.issue_of_ok]
  · rfl
  · exact passes

theorem State.strictWrite_of_error {f : Failure} {pass : Nat} {e : AccessResult × Byte}
    (refused : checkAccess s.link.regions (s.stateRequest r faultedCode) = .error e) :
    s.strictWrite r f pass = (s.finishAt r .strict).strictEnded r f pass false := by
  rw [State.strictWrite, State.setFinish_eq, State.issueRecord_finishAt,
    State.issue_of_error (result := e.1) (region := e.2) (by exact refused)]

end Writes

/-! ### The ends of a handling's writes -/

section Replies

variable {f : Failure} {data : List Byte}

theorem State.finishReply_outcome_done (h : (s.ctx p).finish = some { report := r, phase := .outcome }) :
    s.finishReply p (.done data) = s.finishStateWrite r := by simp only [State.finishReply, h]

theorem State.finishReply_outcome_failed (h : (s.ctx p).finish = some { report := r, phase := .outcome }) :
    s.finishReply p (.failed f) = s.finishFailed r f := by simp only [State.finishReply, h]

theorem State.finishReply_state_done (h : (s.ctx p).finish = some { report := r, phase := .state }) :
    s.finishReply p (.done data) = s.finishDone r := by simp only [State.finishReply, h]

theorem State.finishReply_state_failed (h : (s.ctx p).finish = some { report := r, phase := .state }) :
    s.finishReply p (.failed f) = s.finishFailed r f := by simp only [State.finishReply, h]

theorem State.finishReply_afterFailure (h : (s.ctx p).finish = some { report := r, phase := .afterFailure f }) (reply : Reply) :
    s.finishReply p reply = s.finishHeld r f := by simp only [State.finishReply, h]

variable {g : Failure} {pass : Nat} (body : r.body = .fault g pass)

include body

theorem State.finishReply_strict_done (h : (s.ctx p).finish = some { report := r, phase := .strict }) :
    s.finishReply p (.done data) = s.strictEnded r g pass true := by simp only [State.finishReply, h, body]

theorem State.finishReply_strict_failed (h : (s.ctx p).finish = some { report := r, phase := .strict }) :
    s.finishReply p (.failed f) = s.strictEnded r g pass false := by simp only [State.finishReply, h, body]

end Replies

/-! ### What a finish leaves of its program -/

theorem State.aFinished_ctx (s : State) (r : Report) : (s.aFinished r).ctx r.program =
    { s.ctx r.program with
      window := (s.ctx r.program).window.pop, lastOutcome := some r.body.outcome, lastInterval := r.interval } :=
  PerProgram.look_modify_same _ _ _

/-- Where nothing waits for a finish, its end leaves the contexts but for the handling. -/
theorem State.FinishOver.ctx {t : State} (h : s.FinishOver p t) (halt : ∀ todo x, s.controller.halt ≠ some (.waitFinish todo x))
    (intake : ∀ i, s.controller.intake = some i → i.phase ≠ .waitFinish) : t.ctx p = { s.ctx p with finish := none } := by
  rw [(h.2 halt).2 fun i h => .inl (intake i h)]
  exact PerProgram.look_modify_same _ _ _

theorem State.Finishes.ctx {t : State} (h : s.Finishes r t) (halt : ∀ todo x, s.controller.halt ≠ some (.waitFinish todo x))
    (intake : ∀ i, s.controller.intake = some i → i.phase ≠ .waitFinish) :
    t.ctx r.program = { s.ctx r.program with
      window := (s.ctx r.program).window.pop, lastOutcome := some r.body.outcome, lastInterval := r.interval, finish := none
      state := if (s.ctx r.program).state = .draining ∧ (s.ctx r.program).window.count ≤ 1 then .off
        else (s.ctx r.program).state } := by
  by_cases drained : (s.ctx r.program).state = .draining ∧ (s.ctx r.program).window.count ≤ 1
  · have off := h.2 drained.1 drained.2
    have left : ∀ u : State, u.FinishOver r.program t → u.controller.halt = s.controller.halt →
        u.controller.intake = s.controller.intake →
        u.ctx r.program = { (s.aFinished r).ctx r.program with state := .off } →
        t.ctx r.program = { s.ctx r.program with
          window := (s.ctx r.program).window.pop, lastOutcome := some r.body.outcome, lastInterval := r.interval
          finish := none, state := .off } := by
      intro u ended same_halt same_intake context
      rw [ended.ctx (by rwa [same_halt]) (by rwa [same_intake]), context, State.aFinished_ctx]
    have offCtx := PerProgram.look_modify_same (s.aFinished r).controller.programs r.program fun c => { c with state := .off }
    rw [if_pos drained]
    by_cases last : s.control.device = .draining ∧ ∀ q, q ≠ r.program → (s.ctx q).state = .off
    · have ended := off.1 last.1 last.2
      exact left _ ended rfl rfl offCtx
    · have ended := off.2 ?_
      · exact left _ ended rfl rfl offCtx
      by_contra only
      push Not at only
      exact last ⟨only.1, fun q other => only.2 q other⟩
  · rw [if_neg drained, (h.1 (by by_contra more; push Not at more; exact drained ⟨more.1, by omega⟩)).ctx halt intake,
      State.aFinished_ctx]

/-- Settles O54. -/
theorem reportsActOnPictureA : Obligations.ReportsActOnPictureA := by
  unfold Obligations.ReportsActOnPictureA
  refine ⟨fun s r => ?matching, fun s pre post r region reports free => ⟨fun o pass size cells meanQ debt body earlier => ?finish,
      fun f pass body earlier => ?fault⟩,
    fun s pre post a r data inFlight before behind agent write => ?ends, fun s p r handling program halt intake => ?after⟩
  case matching =>
    intro w
    rw [State.reportMatches_iff, State.abandoning_eq_false_iff, Window.named_zero]
  case finish =>
    have takes : exec (.finishReport r.program) s =
        .next (({ s with controller := { s.controller with reports := pre ++ post } } : State).handleReport r) :=
      congrArg Host.Outcome.next (State.takeReportOf_split reports free earlier (Report.isFinish_of_body body))
    refine ⟨fun other => ?_, fun same passes => ?_, fun result region same refused => ⟨_, takes, ?_⟩⟩
    · rw [takes, State.handleReport_discards]
      exact other
    · rw [takes, State.handleReport_finish body, State.finishOutcomeWrite_of_ok]
      · rfl
      · exact passes
      · exact same
    · rw [State.handleReport_finish body, State.finishOutcomeWrite_of_error]
      · exact State.finishFailed_spec _ _ _
      · exact refused
      · exact same
  case fault =>
    have takes : exec (.faultReport r.program) s =
        .next (({ s with controller := { s.controller with reports := pre ++ post } } : State).handleReport r) :=
      congrArg Host.Outcome.next (State.takeReportOf_split reports free earlier (Report.isFault_of_body body))
    refine ⟨fun other => ?_, fun same passes => ?_, fun e same refused => ⟨_, takes, ?_⟩⟩
    · rw [takes, State.handleReport_discards]
      exact other
    · rw [takes, State.handleReport_fault body, State.strictWrite_of_ok]
      · rfl
      · exact passes
      · exact same
    · rw [State.handleReport_fault body, State.strictWrite_of_error]
      · exact State.strictEnded_spec _ _ _ _ _
      · exact refused
      · exact same
  case ends =>
    intro rest failure failed handling
    have done : exec (.accessCompletion a.tag data) s = .next (rest.finishReply r.program (.done [])) := by
      rw [exec_accessCompletion_write inFlight before behind write, agent]
      rfl
    have fails : ∀ c, failed c → exec c s = .next (rest.finishReply r.program (.failed failure)) := by
      intro c bus
      rw [exec_busEnd inFlight before behind bus, agent, Access.busFailure, write]
      rfl
    refine ⟨fun phase => ⟨⟨_, done, ?_⟩, fun c bus => ⟨_, fails c bus, ?_⟩⟩, fun phase => ⟨⟨_, done, ?_⟩,
      fun c bus => ⟨_, fails c bus, ?_⟩⟩, fun f c phase ended => ?_, fun f pass body phase => ⟨⟨_, done, ?_⟩,
      fun c bus => ⟨_, fails c bus, ?_⟩⟩⟩
    · rw [State.finishReply_outcome_done (s := rest) phase]
      exact State.finishStateWrite_spec _ _
    · rw [State.finishReply_outcome_failed (s := rest) phase]
      exact State.finishFailed_spec _ _ _
    · rw [State.finishReply_state_done (s := rest) phase]
      exact State.finishDone_spec _ _
    · rw [State.finishReply_state_failed (s := rest) phase]
      exact State.finishFailed_spec _ _ _
    · obtain rfl | bus := ended
      · refine ⟨_, done, ?_⟩
        rw [State.finishReply_afterFailure (s := rest) phase]
        exact State.finishHeld_spec _ _ _
      · refine ⟨_, fails c bus, ?_⟩
        rw [State.finishReply_afterFailure (s := rest) phase]
        exact State.finishHeld_spec _ _ _
    · rw [State.finishReply_strict_done (s := rest) body phase]
      exact State.strictEnded_spec _ _ _ _ _
    · rw [State.finishReply_strict_failed (s := rest) body phase]
      exact State.strictEnded_spec _ _ _ _ _
  case after =>
    subst program
    rw [State.finishReply_state_done handling, (s.finishDone_spec r).ctx halt intake]
    exact ⟨rfl, rfl, rfl, rfl, rfl⟩

end Sys2Proof.Machine

/-! PROOFS. The records of the picture chain, the lookahead window and the holding fault (01, 1.3 and 1.4; 02; 11.2). -/

namespace Sys2Proof.Machine

/-! ### Records, slice descriptors and side entries -/

theorem toNat_ofNat_leNat {n w : Nat} (h : 256 ^ n = 2 ^ w) (bs : List Byte) (off : Nat) :
    (BitVec.ofNat w (leNat bs off n)).toNat = leNat bs off n := by
  rw [BitVec.toNat_ofNat, Nat.mod_eq_of_lt (h ▸ leNat_lt bs off n)]

theorem readSlices_length (count : Nat) (bs : List Byte) : (readSlices count bs).length = count := by
  simp [readSlices]

theorem readSides_length (count : Nat) (bs : List Byte) : (readSides count bs).length = count := by
  simp [readSides]

theorem readSlices_getElem? {count i : Nat} {bs : List Byte} {d : SliceDesc} (h : (readSlices count bs)[i]? = some d) :
    d.offset = leNat bs (16 * i) 4 ∧ d.length = leNat bs (16 * i + 4) 4 ∧ d.qIn = leNat bs (16 * i + 8) 1 := by
  rw [readSlices, List.getElem?_map, Option.map_eq_some_iff] at h
  obtain ⟨j, here, rfl⟩ := h
  obtain ⟨-, rfl⟩ := List.getElem?_eq_some_iff.1 here
  rw [List.getElem_range]
  exact ⟨rfl, rfl, rfl⟩

theorem readSides_getElem? {count i : Nat} {bs : List Byte} {e : SideEntry} (h : (readSides count bs)[i]? = some e) :
    e.address.toNat = leNat bs (16 * i) 8 ∧ e.length = leNat bs (16 * i + 8) 2 ∧ e.target = leNat bs (16 * i + 10) 1 ∧
      e.group = leNat bs (16 * i + 11) 1 := by
  rw [readSides, List.getElem?_map, Option.map_eq_some_iff] at h
  obtain ⟨j, here, rfl⟩ := h
  obtain ⟨-, rfl⟩ := List.getElem?_eq_some_iff.1 here
  rw [List.getElem_range]
  exact ⟨toNat_ofNat_leNat rfl _ _, rfl, rfl, rfl⟩

/-! ### The mean quantizer -/

theorem qMeanOf_le_iff {slices : List SliceDesc} (positive : 0 < (slices.map SliceDesc.length).sum) (q : Nat) :
    qMeanOf slices ≤ q ↔ (slices.map fun d => d.length * d.qIn).sum ≤ q * (slices.map SliceDesc.length).sum := by
  rw [qMeanOf, weightedMean, ceilDiv_le_iff positive, List.zipWith_map_right, List.zipWith_self]

/-! ### The bytes of an outcome write -/

theorem outcomeCode_lt (o : Outcome) : outcomeCode o < 256 := by cases o <;> decide

theorem dispositionCode_lt (d : Disposition) : dispositionCode d < 256 := by cases d <;> decide

theorem dispositionBytes_byte (sides : List SlotSide) {i : Nat} (h : i < 8) :
    leNat (dispositionBytes sides) i 1 = (sides[i]?.map fun x => dispositionCode x.disposition).getD 0 := by
  rw [leNat_one, byteAt, dispositionBytes, List.getD_eq_getElem?_getD, List.getElem?_map, List.getElem?_range h]
  cases side : sides[i]? with
  | none => simp [side]
  | some x => simpa [side] using Nat.mod_eq_of_lt (dispositionCode_lt x.disposition)

theorem outcomeBytes_eq (o : Outcome) (pass size cells meanQ : Nat) (interval : Word) (sides : List SlotSide) :
    outcomeBytes o pass size cells meanQ interval sides =
      leBytes 1 (outcomeCode o) ++ (leBytes 1 pass ++ (leBytes 1 meanQ ++ (zeros 1 ++ (leBytes 4 size ++ (leBytes 2 cells ++
        (zeros 2 ++ (leBytes 4 interval.toNat ++ dispositionBytes sides))))))) := by
  simp only [outcomeBytes, List.append_assoc]

/-- R22, R184: the fields of an outcome write stand where 11.2 lays them out. -/
theorem outcomeBytes_fields (o : Outcome) (pass size cells meanQ : Nat) (interval : Word) (sides : List SlotSide) :
    let bytes := outcomeBytes o pass size cells meanQ interval sides
    leNat bytes 0 1 = outcomeCode o ∧ leNat bytes 1 1 = pass % 256 ∧ leNat bytes 2 1 = meanQ % 256 ∧ leNat bytes 3 1 = 0 ∧
      leNat bytes 4 4 = size % 4294967296 ∧ leNat bytes 8 2 = cells % 65536 ∧ leNat bytes 10 2 = 0 ∧
      leNat bytes 12 4 = interval.toNat ∧
      ∀ i < 8, leNat bytes (16 + i) 1 = (sides[i]?.map fun x => dispositionCode x.disposition).getD 0 := by
  intro bytes
  have code := Nat.mod_eq_of_lt (outcomeCode_lt o)
  simp only [bytes, outcomeBytes_eq]
  refine ⟨?_, ?_, ?_, ?_, ?_, ?_, ?_, ?_, fun i h => ?_⟩
  · rw [leNat_field, Nat.pow_one, code]
  · simp only [Nat.reduceSub, leNat_behind_field, leNat_field, Nat.pow_one, Nat.le_refl]
  · simp only [Nat.reduceLeDiff, Nat.reduceSub, leNat_behind_field, leNat_field, Nat.pow_one, Nat.le_refl]
  · simp only [Nat.reduceLeDiff, Nat.reduceSub, leNat_behind_field, leNat_zeros_append, Nat.reduceAdd, Nat.le_refl]
  · simp only [Nat.reduceLeDiff, Nat.reduceSub, leNat_behind_field, leNat_behind_zeros, leNat_field, Nat.le_refl, Nat.reducePow]
  · simp only [Nat.reduceLeDiff, Nat.reduceSub, leNat_behind_field, leNat_behind_zeros, leNat_field, Nat.le_refl, Nat.reducePow]
  · simp only [Nat.reduceLeDiff, Nat.reduceSub, leNat_behind_field, leNat_behind_zeros, leNat_zeros_append, Nat.le_refl,
      Nat.reduceAdd]
  · simp only [Nat.reduceLeDiff, Nat.reduceSub, leNat_behind_field, leNat_behind_zeros, leNat_field, Nat.le_refl, word_mod]
  · rw [leNat_behind_field (by omega), leNat_behind_field (by omega), leNat_behind_field (by omega),
      leNat_behind_zeros (by omega), leNat_behind_field (by omega), leNat_behind_field (by omega),
      leNat_behind_zeros (by omega), leNat_behind_field (by omega), ← dispositionBytes_byte sides h]
    congr 1
    omega

/-! ### The window -/

theorem Window.slotIndex_inj {w : Window} {i j : Nat} (hi : i < 4) (hj : j < 4) (same : w.slotIndex i = w.slotIndex j) : i = j := by
  have offsets : Fin.ofNat 4 i = Fin.ofNat 4 j := add_left_cancel same
  rwa [Fin.ext_iff, Fin.val_ofNat, Fin.val_ofNat, Nat.mod_eq_of_lt hi, Nat.mod_eq_of_lt hj] at offsets

theorem Window.push_named_same (w : Window) (x : Slot) : (w.push x).named w.count = x :=
  Vector.getElem_set_self (w.slotIndex w.count).isLt

theorem Window.push_named_ne {w : Window} {i : Nat} (room : w.count < 4) (valid : i < w.count) (x : Slot) :
    (w.push x).named i = w.named i :=
  Vector.getElem_set_ne (w.slotIndex w.count).isLt (w.slotIndex i).isLt fun same =>
    Nat.ne_of_gt valid (Window.slotIndex_inj room (by omega) (Fin.ext same))

theorem Window.push_valid {w : Window} (room : w.count < 4) (x : Slot) : (w.push x).valid = w.valid ++ [x] := by
  have earlier : (List.range w.count).map (w.push x).named = (List.range w.count).map w.named :=
    List.map_congr_left fun i mem => Window.push_named_ne room (List.mem_range.1 mem) x
  show (List.range (w.count + 1)).map (w.push x).named = _
  rw [List.range_succ, List.map_append, earlier, List.map_singleton, Window.push_named_same]
  rfl

theorem Window.pop_named (w : Window) (i : Nat) : w.pop.named i = w.named (i + 1) := by
  have index : w.pop.slotIndex i = w.slotIndex (i + 1) := by
    show w.head + 1 + Fin.ofNat 4 i = w.head + Fin.ofNat 4 (i + 1)
    rw [Fin.ext_iff]
    simp only [Fin.val_add, Fin.val_ofNat, Fin.val_one]
    omega
  exact congrArg (fun j : Fin 4 => w.slots[j]) index

theorem Window.valid_eq_cons_pop {w : Window} (positive : 1 ≤ w.count) : w.valid = w.named 0 :: w.pop.valid := by
  obtain ⟨n, count⟩ := Nat.exists_eq_add_of_le' positive
  have left : w.pop.count = n := by simp [Window.pop, count]
  have names : w.pop.named = fun i => w.named (i + 1) := funext w.pop_named
  rw [Window.valid, Window.valid, count, left, names, List.range_succ_eq_map, List.map_cons, List.map_map]
  rfl

/-! ### The holding fault -/

section Hold

variable {s : State} {p : Program}

theorem State.hold_off (off : (s.ctx p).state = .off) (byIntake : Bool) (info : FaultInfo) : s.hold p byIntake info = s := by
  simp only [State.hold, off]

/-- The note of a holding fault, an intake's own or the controller's (R24). -/
def State.noteHeld (s : State) (p : Program) (byIntake : Bool) : State :=
  if byIntake then s.intakeNote p fun n => { n with heldFault := true } else s.note p fun n => { n with heldFault := true }

theorem State.hold_held (held : (s.ctx p).state = .held) (byIntake : Bool) (info : FaultInfo) :
    s.hold p byIntake info = s.noteHeld p byIntake := by
  simp only [State.hold, held]
  rfl

theorem State.hold_on (on : (s.ctx p).state ≠ .off) (running : (s.ctx p).state ≠ .held) (byIntake : Bool) (info : FaultInfo) :
    s.hold p byIntake info =
      ((s.noteHeld p byIntake).modCtx p fun c => { c with state := .held }).requestFaultRecord (s.faultRequest p info) := by
  cases state : (s.ctx p).state with
  | off => exact absurd state on
  | held => exact absurd state running
  | priming => simp only [State.hold, state]; rfl
  | running => simp only [State.hold, state]; rfl
  | draining => simp only [State.hold, state]; rfl

theorem State.noteHeld_programs (s : State) (p : Program) (byIntake : Bool) :
    (s.noteHeld p byIntake).controller.programs = s.controller.programs := by
  cases byIntake
  · rfl
  · rfl

theorem State.noteHeld_reporter (s : State) (p : Program) (byIntake : Bool) :
    (s.noteHeld p byIntake).reporter = s.reporter := by
  cases byIntake
  · rfl
  · rfl

/-- The notes that a holding fault goes to. -/
def State.heldNotes (s : State) (byIntake : Bool) : PerProgram Notes :=
  if byIntake then s.controller.intakeNotes else s.controller.notes

theorem State.noteHeld_heldFault (s : State) (p : Program) (byIntake : Bool) :
    (((s.noteHeld p byIntake).heldNotes byIntake).look p).heldFault = true := by
  cases byIntake
  · exact congrArg Notes.heldFault (PerProgram.look_modify_same s.controller.notes p fun n => { n with heldFault := true })
  · exact congrArg Notes.heldFault (PerProgram.look_modify_same s.controller.intakeNotes p fun n => { n with heldFault := true })

/-- A fault record request leaves the contexts, and of the notes all but those of lost records. -/
theorem State.requestFaultRecord_controller (s : State) (r : FaultRequest) :
    ∃ notes, (s.requestFaultRecord r).controller = { s.controller with notes := notes } ∧
      ∀ q, (notes.look q).heldFault = (s.controller.notes.look q).heldFault := by
  unfold State.requestFaultRecord
  split
  next =>
    obtain ⟨l, w, started, -⟩ := (s.setReporter { s.reporter with faultQueue := [r] }).startFaultWrite_cases
    rw [started]
    exact ⟨_, rfl, fun _ => rfl⟩
  next =>
    split
    · refine ⟨_, rfl, fun q => ?_⟩
      show ((s.controller.notes.modify r.program _).look q).heldFault = _
      rw [PerProgram.look_modify]
      split
      next same => rfl
      next => rfl
    · exact ⟨_, rfl, fun _ => rfl⟩

theorem State.requestFaultRecord_queue_of_empty (r : FaultRequest) (empty : s.reporter.faultQueue = []) :
    (s.requestFaultRecord r).reporter.faultQueue = [r] := by
  simp only [State.requestFaultRecord, empty]
  obtain ⟨l, w, started, -⟩ := (s.setReporter { s.reporter with faultQueue := [r] }).startFaultWrite_cases
  rw [started]
  rfl

/-- R11: a holding fault makes its program HELD and leaves the rest of its context. -/
theorem State.hold_ctx (on : (s.ctx p).state ≠ .off) (byIntake : Bool) (info : FaultInfo) :
    (s.hold p byIntake info).ctx p = { s.ctx p with state := .held } := by
  by_cases held : (s.ctx p).state = .held
  · rw [State.hold_held held, State.ctx, State.noteHeld_programs, ← held]
    rfl
  · obtain ⟨notes, controller, -⟩ := (((s.noteHeld p byIntake).modCtx p fun c => { c with state := .held })).requestFaultRecord_controller
      (s.faultRequest p info)
    rw [State.hold_on on held, State.ctx, controller]
    show ((s.noteHeld p byIntake).controller.programs.modify p _).look p = _
    rw [State.noteHeld_programs, PerProgram.look_modify_same]
    rfl

theorem State.hold_heldFault (on : (s.ctx p).state ≠ .off) (byIntake : Bool) (info : FaultInfo) :
    (((s.hold p byIntake info).heldNotes byIntake).look p).heldFault = true := by
  by_cases held : (s.ctx p).state = .held
  · rw [State.hold_held held]
    exact s.noteHeld_heldFault p byIntake
  · obtain ⟨notes, controller, kept⟩ := (((s.noteHeld p byIntake).modCtx p fun c => { c with state := .held })).requestFaultRecord_controller
      (s.faultRequest p info)
    rw [State.hold_on on held, State.heldNotes, controller]
    cases byIntake with
    | true => exact s.noteHeld_heldFault p true
    | false => exact (kept p).trans (s.noteHeld_heldFault p false)

/-- R166: with no request waiting the holding fault's own one is the queue; a program already HELD makes none. -/
theorem State.hold_queue_of_empty (on : (s.ctx p).state ≠ .off) (empty : s.reporter.faultQueue = []) (byIntake : Bool)
    (info : FaultInfo) : (s.hold p byIntake info).reporter.faultQueue =
      if (s.ctx p).state = .held then [] else [s.faultRequest p info] := by
  by_cases held : (s.ctx p).state = .held
  · rw [State.hold_held held, if_pos held, State.noteHeld_reporter, empty]
  · rw [State.hold_on on held, if_neg held, State.requestFaultRecord_queue_of_empty]
    show (s.noteHeld p byIntake).reporter.faultQueue = []
    rw [State.noteHeld_reporter, empty]

end Hold

end Sys2Proof.Machine

/-! PROOFS. The steps of a take at intake (01, R17 to R22; 02, R25, R29, R33 to R35). -/

namespace Sys2Proof.Machine

theorem recordValid_iff (rf : RecordFields) : recordValid rf = true ↔
    rf.kind ≤ 2 ∧ 1 ≤ rf.sliceCount ∧ rf.sliceCount ≤ 72 ∧ rf.sideCount ≤ 8 ∧ 1 ≤ rf.sourceSize ∧ rf.sourceSize ≤ 1048576 := by
  simp only [recordValid, Bool.and_eq_true, decide_eq_true_eq]
  tauto

theorem sliceValid_iff (d : SliceDesc) : sliceValid d = true ↔ 1 ≤ d.qIn ∧ d.qIn ≤ 62 ∧ 5 ≤ d.length := by
  simp only [sliceValid, Bool.and_eq_true, decide_eq_true_eq, and_assoc]

theorem not_alignedAddress_iff (a : Long) : (!alignedAddress a) = true ↔ a = 0 ∨ a.toNat % 8 ≠ 0 := by
  rw [Bool.not_eq_true', ← Bool.not_eq_true, alignedAddress_iff, not_and_or, not_not]

/-- Two changes of one program's context are one. -/
theorem State.modCtx_modCtx (s : State) (p : Program) (f g : ProgramCtx → ProgramCtx) :
    (s.modCtx p f).modCtx p g = s.modCtx p fun c => g (f c) := by
  have twice := s.controller.programs.modify_modify p f g
  exact congrArg (fun programs => s.setController { s.controller with programs := programs }) twice

/-! ### The reply that a phase hands on -/

section Phase

variable {s : State} {i : Intake} (h : s.controller.intake = some i) (r : Reply)

include h

theorem State.intakeStep_stateRead (phase : i.phase = .stateRead) : s.intakeStep r = s.stateReply i.program r := by
  simp only [State.intakeStep, h, phase]

theorem State.intakeStep_recordRead (phase : i.phase = .recordRead) : s.intakeStep r = s.recordReply i.program r := by
  simp only [State.intakeStep, h, phase]

theorem State.intakeStep_sliceTable {rf : RecordFields} (phase : i.phase = .sliceTable rf) :
    s.intakeStep r = s.sliceTableReply i.program rf r := by
  simp only [State.intakeStep, h, phase]

theorem State.intakeStep_sideTable {rf : RecordFields} {slices : List SliceDesc} (phase : i.phase = .sideTable rf slices) :
    s.intakeStep r = s.sideTableReply i.program rf slices r := by
  simp only [State.intakeStep, h, phase]

theorem State.intakeStep_taken {slot : Slot} {link : Long} (phase : i.phase = .taken slot link) :
    s.intakeStep r = s.takenReply i.program slot link r := by
  simp only [State.intakeStep, h, phase]

theorem State.intakeStep_finishOutcome {o : Outcome} {n : Word} {rf : RecordFields} (phase : i.phase = .finishOutcome o n rf) :
    s.intakeStep r = s.finishOutcomeReply i.program o n rf r := by
  simp only [State.intakeStep, h, phase]

theorem State.intakeStep_finishState {o : Outcome} {n : Word} {rf : RecordFields} (phase : i.phase = .finishState o n rf) :
    s.intakeStep r = s.finishStateReply i.program o n rf r := by
  simp only [State.intakeStep, h, phase]

theorem State.intakeStep_faulted {info : FaultInfo} {o : Option (Outcome × Word)} (phase : i.phase = .faulted info o) :
    s.intakeStep r = s.faultedReply i.program info o := by
  simp only [State.intakeStep, h, phase]

end Phase

/-! ### The writes of a take -/

section Writes

variable {s : State} {i : Intake} (h : s.controller.intake = some i)

/-- The state with the intake at another phase of its program. -/
def State.intakeAt (s : State) (i : Intake) (phase : IntakePhase) : State :=
  { s with controller := { s.controller with intake := some { i with phase := phase } } }

/-- A write to the record of a take, with the phase that waits for its end. -/
def State.takeWrite (s : State) (i : Intake) (phase : IntakePhase) (offset : Long) (data : List Byte) : Cont :=
  (s.intakeAt i phase).issue
    { agent := .intake, kind := .write, addr := (s.ctx i.program).nextRecord + offset, length := data.length
      key := some (s.ctx i.program).fixed.accessKey, data := data }

include h

theorem State.faultedAttempt_eq (info : FaultInfo) (o : Option (Outcome × Word)) :
    s.faultedAttempt i.program info o = s.takeWrite i (.faulted info o) 0 [faultedCode] := by
  rw [State.faultedAttempt, State.atPhase_of_intake h]
  rfl

theorem State.finishAtIntake_eq (o : Outcome) (rf : RecordFields) :
    s.finishAtIntake i.program o rf =
      s.takeWrite i (.finishOutcome o s.timer.number rf) 0x30 (outcomeBytes o 0 0 0 0 s.timer.number []) := by
  rw [State.finishAtIntake, State.atPhase_of_intake h]
  rfl

theorem State.takenWrite_eq (rf : RecordFields) (slices : List SliceDesc) (sides : List SlotSide) :
    s.takenWrite i.program rf slices sides =
      s.takeWrite i (.taken (slotOf ((s.ctx i.program).takeNumber + 1) (s.ctx i.program).nextRecord rf slices sides) rf.link) 0
        [takenCode] := by
  rw [State.takenWrite, State.atPhase_of_intake h]
  rfl

/-! ### The next take -/

theorem State.tryTake_takes (going : i.halted = false) (state : (s.ctx i.program).state = .priming ∨ (s.ctx i.program).state = .running)
    (takes : i.takes < 2) (room : (s.ctx i.program).window.count < 4) :
    s.tryTake i.program = (s.intakeAt i .stateRead).issue
      (readRequest .intake (some (s.ctx i.program).fixed.accessKey) (s.ctx i.program).nextRecord 1) := by
  simp only [State.tryTake, h]
  rw [if_neg (by simp [going]), if_pos ⟨state, takes, room⟩, State.atPhase_of_intake h]
  rfl

theorem State.nextProgram_halted (halted : i.halted = true) : s.nextProgram = (s.endHaltedIntake, none) := by
  simp only [State.nextProgram, h]
  rw [if_pos halted]

theorem State.tryTake_halted (halted : i.halted = true) : s.tryTake i.program = s.nextProgram := by
  rw [State.nextProgram_halted h halted]
  simp only [State.tryTake, h]
  rw [if_pos halted]

theorem State.tryTake_ends (closed : ¬ (((s.ctx i.program).state = .priming ∨ (s.ctx i.program).state = .running) ∧
    i.takes < 2 ∧ (s.ctx i.program).window.count < 4)) : s.tryTake i.program = s.nextProgram := by
  by_cases halted : i.halted = true
  · exact State.tryTake_halted h halted
  · simp only [State.tryTake, h]
    rw [if_neg halted, if_neg closed]

/-- R15: an intake that HALT ended leaves the controller to its HALT work. -/
theorem State.nextProgram_waitIntake {x : Bool} (halted : i.halted = true) (waits : s.controller.halt = some (.waitIntake x)) :
    s.nextProgram =
      (State.haltAdvance x programs { s with controller := { s.controller with intake := none } }, none) := by
  rw [State.nextProgram_halted h halted]
  simp only [State.endHaltedIntake, waits]
  rfl

end Writes

/-! ### The reads of a take -/

section Reads

variable {s : State} {i : Intake} (h : s.controller.intake = some i)

include h

section Open

variable (going : i.halted = false) (running : (s.ctx i.program).state ≠ .held) {data : List Byte}

include going running

theorem State.stateReply_ready (ready : byteAt data 0 = 1) : s.stateReply i.program (.done data) =
    ({ s with controller := { s.controller with
      intake := some { i with takes := i.takes + 1, phase := .recordRead } } } : State).issue
      (readRequest .intake (some (s.ctx i.program).fixed.accessKey) (s.ctx i.program).nextRecord 96) := by
  rw [State.stateReply, State.takeOn_of_open h going running, if_pos ready]
  simp only [State.countTake, State.atPhase, State.setController, h, Option.map_some]

theorem State.stateReply_unready (unready : byteAt data 0 ≠ 1) : s.stateReply i.program (.done data) = s.nextProgram := by
  rw [State.stateReply, State.takeOn_of_open h going running, if_neg unready]

theorem State.recordReply_badLink (bad : (!alignedAddress (readRecord data).link) = true) :
    s.recordReply i.program (.done data) = s.takeWrite i
      (.faulted (linkFault (s.ctx i.program).nextRecord (readRecord data).link (readRecord data).sequence) none) 0
      [faultedCode] := by
  rw [State.recordReply]
  rw [State.takeOn_of_open h going running, if_pos bad, State.faultedAttempt_eq h]

theorem State.recordReply_malformed (good : ¬ (!alignedAddress (readRecord data).link) = true)
    (invalid : ¬ recordValid (readRecord data) = true) :
    s.recordReply i.program (.done data) = s.takeWrite i (.finishOutcome .malformed s.timer.number (readRecord data)) 0x30
      (outcomeBytes .malformed 0 0 0 0 s.timer.number []) := by
  rw [State.recordReply]
  rw [State.takeOn_of_open h going running, if_neg good, if_pos (by simp [invalid]), State.finishAtIntake_eq h]

theorem State.recordReply_valid (good : ¬ (!alignedAddress (readRecord data).link) = true)
    (valid : recordValid (readRecord data) = true) :
    s.recordReply i.program (.done data) = (s.intakeAt i (.sliceTable (readRecord data))).issue
      (readRequest .intake (some (s.ctx i.program).fixed.accessKey) (readRecord data).sliceTable
        (16 * (readRecord data).sliceCount)) := by
  rw [State.recordReply]
  rw [State.takeOn_of_open h going running, if_neg good, if_neg (by simp [valid]), State.atPhase_of_intake h]
  rfl

variable {rf : RecordFields}

theorem State.sliceTableReply_malformed (bad : ¬ (readSlices rf.sliceCount data).all sliceValid = true) :
    s.sliceTableReply i.program rf (.done data) = s.takeWrite i (.finishOutcome .malformed s.timer.number rf) 0x30
      (outcomeBytes .malformed 0 0 0 0 s.timer.number []) := by
  rw [State.sliceTableReply]
  rw [State.takeOn_of_open h going running, if_pos (by rwa [Bool.not_eq_true', ← Bool.not_eq_true]), State.finishAtIntake_eq h]

theorem State.sliceTableReply_noSides (good : (readSlices rf.sliceCount data).all sliceValid = true) (none_ : rf.sideCount = 0) :
    s.sliceTableReply i.program rf (.done data) = s.takenWrite i.program rf (readSlices rf.sliceCount data) [] := by
  rw [State.sliceTableReply]
  rw [State.takeOn_of_open h going running, if_neg (by rw [good]; exact Bool.false_ne_true), if_neg (by omega)]

theorem State.sliceTableReply_sides (good : (readSlices rf.sliceCount data).all sliceValid = true) (some_ : 1 ≤ rf.sideCount) :
    s.sliceTableReply i.program rf (.done data) =
      (s.intakeAt i (.sideTable rf (readSlices rf.sliceCount data))).issue
        (readRequest .intake (some (s.ctx i.program).fixed.accessKey) rf.sideTable (16 * rf.sideCount)) := by
  rw [State.sliceTableReply]
  rw [State.takeOn_of_open h going running, if_neg (by rw [good]; exact Bool.false_ne_true), if_pos some_,
    State.atPhase_of_intake h]
  rfl

end Open

/-- A read of a take that HALT or a holding fault overtook ends the take, where it succeeded. -/
theorem State.intakeStep_overtaken (stopped : i.halted = true ∨ (s.ctx i.program).state = .held)
    (phase : i.phase = .stateRead ∨ i.phase = .recordRead ∨ (∃ rf, i.phase = .sliceTable rf) ∨
      (∃ rf slices, i.phase = .sideTable rf slices) ∨ (∃ rf slices done e rest, i.phase = .headRead rf slices done e rest))
    (data : List Byte) : s.intakeStep (.done data) = s.nextProgram := by
  obtain phase | phase | ⟨rf, phase⟩ | ⟨rf, slices, phase⟩ | ⟨rf, slices, done, e, rest, phase⟩ := phase
  · rw [State.intakeStep_stateRead h _ phase, State.stateReply, State.takeOn_of_stopped h stopped]
  · rw [State.intakeStep_recordRead h _ phase, State.recordReply, State.takeOn_of_stopped h stopped]
  · rw [State.intakeStep_sliceTable h _ phase, State.sliceTableReply, State.takeOn_of_stopped h stopped]
  · rw [State.intakeStep_sideTable h _ phase, State.sideTableReply, State.takeOn_of_stopped h stopped]
  · rw [State.intakeStep_headRead h rfl phase, State.headReply, State.takeOn_of_stopped h stopped]

end Reads

/-- Settles O40. -/
theorem windowTakesAndFinishes : Obligations.WindowTakesAndFinishes := by
  unfold Obligations.WindowTakesAndFinishes
  refine ⟨fun data => ?record, ⟨rfl, rfl, rfl⟩, fun slices => ?mean,
    fun o pass size cells meanQ interval sides => ⟨outcomeBytes_length .., outcomeBytes_fields ..⟩, ?outcomes, ?dispositions,
    fun w x room => ⟨rfl, rfl, w.push_named_same x, fun i valid => Window.push_named_ne room valid x, Window.push_valid room x⟩,
    fun w positive _ => ⟨rfl, rfl, fun i _ => w.pop_named i, Window.valid_eq_cons_pop positive⟩,
    fun s p info byIntake => ⟨fun off => State.hold_off off byIntake info, fun on => ⟨State.hold_ctx on byIntake info, ?held,
      fun empty => State.hold_queue_of_empty on empty byIntake info⟩⟩, fun s i h => ?steps⟩
  case record =>
    intro rf
    exact ⟨rfl, rfl, rfl, toNat_ofNat_leNat rfl _ _, toNat_ofNat_leNat rfl _ _, rfl, toNat_ofNat_leNat rfl _ _,
      toNat_ofNat_leNat rfl _ _, toNat_ofNat_leNat rfl _ _, fun n => ⟨readSlices_length n data, readSides_length n data,
      fun i d => readSlices_getElem?, fun i e => readSides_getElem?⟩⟩
  case mean =>
    intro total positive
    refine ⟨qMeanOf_le_iff positive, fun range => ?_⟩
    refine weightedMean_between (by rw [List.length_map]) positive fun q mem => ?_
    obtain ⟨d, among, rfl⟩ := List.mem_map.1 mem
    exact range d among
  case outcomes => decide
  case dispositions => decide
  case held =>
    have noted := State.hold_heldFault on byIntake info
    cases byIntake
    · exact noted
    · exact noted
  case steps =>
    intro p c key goes put writeFrom write fault slotOf'
    have overtaken : ¬ goes → i.halted = true ∨ c.state = .held := by
      intro stopped
      by_contra open_
      push Not at open_
      exact stopped ⟨by simpa using open_.1, open_.2⟩
    refine ⟨State.tryTake_takes h, fun closed => ?tries, fun x => State.nextProgram_waitIntake h,
      fun data stopped phase => State.intakeStep_overtaken h (overtaken stopped) phase data, fun phase => ?stateRead,
      fun phase => ?recordRead, fun rf phase => ?sliceTable, fun rf slices phase => ?sideTable, fun slot link phase => ?taken,
      fun o n rf phase => ?finishOutcome, fun o n rf phase => ?finishState, fun info reply => ?faulted⟩
    case tries => exact closed.elim (State.tryTake_halted h) (State.tryTake_ends h)
    case stateRead =>
      refine ⟨fun data open_ ready => ?_, fun data open_ unready => ?_, fun f => ?_⟩
      · rw [State.intakeStep_stateRead h _ phase, State.stateReply_ready h open_.1 open_.2 ready]
      · rw [State.intakeStep_stateRead h _ phase, State.stateReply_unready h open_.1 open_.2 unready]
      · rw [State.intakeStep_stateRead h _ phase]
        rfl
    case recordRead =>
      refine ⟨fun data open_ => ⟨fun bad => ?_, fun nonzero multiple => ?_⟩, fun f => ?_⟩
      · rw [State.intakeStep_recordRead h _ phase,
          State.recordReply_badLink h open_.1 open_.2 ((not_alignedAddress_iff _).2 bad)]
        rfl
      · have good : ¬ (!alignedAddress (readRecord data).link) = true := fun bad =>
          ((not_alignedAddress_iff _).1 bad).elim nonzero fun other => other multiple
        refine ⟨fun invalid => ?_, fun kind least most sides low high => ?_⟩
        · rw [State.intakeStep_recordRead h _ phase, State.recordReply_malformed h open_.1 open_.2 good]
          · rfl
          · rw [recordValid_iff]
            omega
        · rw [State.intakeStep_recordRead h _ phase, State.recordReply_valid h open_.1 open_.2 good
            ((recordValid_iff _).2 ⟨kind, least, most, sides, low, high⟩)]
          rfl
      · rw [State.intakeStep_recordRead h _ phase]
        exact State.faultedAttempt_eq h _ _
    case sliceTable =>
      refine ⟨fun data open_ => ⟨fun bad => ?_, fun good => ⟨fun none_ => ?_, fun some_ => ?_⟩⟩,
        fun f => ⟨fun tolerant => ?_, fun strict => ?_⟩⟩
      · rw [State.intakeStep_sliceTable h _ phase, State.sliceTableReply_malformed h open_.1 open_.2]
        · rfl
        · intro all
          obtain ⟨d, mem, out⟩ := bad
          have valid := (sliceValid_iff d).1 (List.all_eq_true.1 all d mem)
          omega
      · rw [State.intakeStep_sliceTable h _ phase, State.sliceTableReply_noSides h open_.1 open_.2
          (List.all_eq_true.2 fun d mem => (sliceValid_iff d).2 (good d mem)) none_, State.takenWrite_eq h]
        rfl
      · rw [State.intakeStep_sliceTable h _ phase, State.sliceTableReply_sides h open_.1 open_.2
          (List.all_eq_true.2 fun d mem => (sliceValid_iff d).2 (good d mem)) some_]
        rfl
      · rw [State.intakeStep_sliceTable h _ phase]
        exact (if_pos tolerant).trans (State.finishAtIntake_eq h _ _)
      · rw [State.intakeStep_sliceTable h _ phase]
        exact (if_neg (Bool.eq_false_iff.1 strict)).trans (State.faultedAttempt_eq h _ _)
    case sideTable =>
      refine ⟨fun data open_ => ?_, fun f => ?_⟩
      · rw [State.intakeStep_sideTable h _ phase]
        exact State.takeOn_of_open h open_.1 open_.2 _
      · intro noted
        have same : noted.controller.intake = some i := h
        refine ⟨fun open_ => ?_, fun stopped => ?_⟩
        · rw [State.intakeStep_sideTable h _ phase, State.sideTableReply, State.takeOn_of_open same open_.1 open_.2,
            State.takenWrite_eq same]
          rfl
        · rw [State.intakeStep_sideTable h _ phase, State.sideTableReply, State.takeOn_of_stopped same (overtaken stopped)]
    case taken =>
      refine ⟨fun data => ⟨fun running => ?_, fun held => ?_⟩, fun f => ?_⟩
      · rw [State.intakeStep_taken h _ phase]
        exact if_neg running
      · rw [State.intakeStep_taken h _ phase]
        exact if_pos held
      · rw [State.intakeStep_taken h _ phase]
        exact State.faultedAttempt_eq h _ _
    case finishOutcome =>
      refine ⟨fun data => ?_, fun f => ?_⟩
      · rw [State.intakeStep_finishOutcome h _ phase, State.finishOutcomeReply, State.atPhase_of_intake h]
        rfl
      · rw [State.intakeStep_finishOutcome h _ phase]
        exact State.faultedAttempt_eq h _ _
    case finishState =>
      refine ⟨fun data => ⟨fun running => ?_, fun held => ?_⟩, fun f => ?_⟩
      · rw [State.intakeStep_finishState h _ phase]
        refine (if_neg running).trans ?_
        rw [State.setLast, State.modCtx_modCtx]
      · rw [State.intakeStep_finishState h _ phase]
        exact if_pos held
      · rw [State.intakeStep_finishState h _ phase]
        exact State.faultedAttempt_eq h _ _
    case faulted =>
      refine ⟨fun phase => ?_, fun o n phase => ?_⟩
      · rw [State.intakeStep_faulted h _ phase]
        rfl
      · rw [State.intakeStep_faulted h _ phase]
        rfl

end Sys2Proof.Machine

/-! PROOFS. What the checks of the region table, the code table, the filter table and the settings accept (03, R42; 04, R67; 07,
R137; 09, R162; 10, R173). -/

namespace Sys2Proof.Machine

/-! ### Tables read entry by entry -/

theorem mapM_eq_none_iff {α β : Type} (f : α → Option β) (l : List α) : l.mapM f = none ↔ ∃ x ∈ l, f x = none := by
  induction l with
  | nil => simp
  | cons x rest ih =>
    rw [List.mapM_cons, List.exists_mem_cons_iff, ← ih]
    cases here : f x with
    | none => simp
    | some y =>
      cases behind : rest.mapM f with
      | none => simp
      | some ys => simp

theorem mapM_getElem? {α β : Type} {f : α → Option β} {l : List α} {ys : List β} (h : l.mapM f = some ys) :
    ys.length = l.length ∧ ∀ (i : Nat) (y : β), ys[i]? = some y → ∃ x, l[i]? = some x ∧ f x = some y := by
  induction l generalizing ys with
  | nil =>
    obtain rfl : [] = ys := by simpa using h
    simp
  | cons x rest ih =>
    rw [List.mapM_cons] at h
    cases here : f x with
    | none => simp [here] at h
    | some z =>
      cases behind : rest.mapM f with
      | none => simp [here, behind] at h
      | some zs =>
        obtain rfl : z :: zs = ys := by simpa [here, behind] using h
        obtain ⟨same, entries⟩ := ih behind
        refine ⟨congrArg (· + 1) same, fun i y => ?_⟩
        cases i with
        | zero =>
          rintro first
          exact ⟨x, rfl, here.trans (by simpa using first)⟩
        | succ i => exact fun later => entries i y (by simpa using later)

theorem mapM_range_eq_none_iff {β : Type} (f : Nat → Option β) (n : Nat) :
    (List.range n).mapM f = none ↔ ∃ i < n, f i = none := by
  simp only [mapM_eq_none_iff, List.mem_range]

theorem mapM_range_getElem? {β : Type} {f : Nat → Option β} {n : Nat} {ys : List β} (h : (List.range n).mapM f = some ys) :
    ys.length = n ∧ ∀ (i : Nat) (y : β), ys[i]? = some y → f i = some y := by
  obtain ⟨length, entries⟩ := mapM_getElem? h
  refine ⟨length.trans List.length_range, fun i y found => ?_⟩
  obtain ⟨j, at_i, entry⟩ := entries i y found
  obtain ⟨bound, same⟩ := List.getElem?_eq_some_iff.1 at_i
  rwa [← same, List.getElem_range] at entry

/-! ### The region table -/

theorem rightsOf_cases (n : Nat) :
    (n = 0 ∧ rightsOf n = some .none) ∨ (n = 1 ∧ rightsOf n = some .read) ∨ (n = 2 ∧ rightsOf n = some .readWrite) ∨
      (2 < n ∧ rightsOf n = none) := by
  match n with
  | 0 => exact .inl ⟨rfl, rfl⟩
  | 1 => exact .inr (.inl ⟨rfl, rfl⟩)
  | 2 => exact .inr (.inr (.inl ⟨rfl, rfl⟩))
  | n + 3 => exact .inr (.inr (.inr ⟨by omega, rfl⟩))

theorem readRegion_invalid_entry {bs : List Byte} {off : Nat} (empty : leNat bs (off + 8) 8 = 0) :
    readRegion bs off =
      some { base := BitVec.ofNat 64 (leNat bs off 8), length := 0, rights := .none, key := byteAt bs (off + 0x11) } := by
  rw [readRegion, if_pos empty]

theorem readRegion_of_rights {bs : List Byte} {off : Nat} {r : Rights} (valid : leNat bs (off + 8) 8 ≠ 0)
    (rights : rightsOf (leNat bs (off + 0x10) 1) = some r) :
    readRegion bs off =
      if (byteAt bs (off + 0x11)).toNat ≤ 15 ∧ leNat bs off 8 + leNat bs (off + 8) 8 ≤ 2 ^ 64 then
        some { base := BitVec.ofNat 64 (leNat bs off 8), length := BitVec.ofNat 64 (leNat bs (off + 8) 8), rights := r
               key := byteAt bs (off + 0x11) }
      else none := by
  simp only [readRegion, rights]
  rw [if_neg valid]

theorem readRegion_of_no_rights {bs : List Byte} {off : Nat} (valid : leNat bs (off + 8) 8 ≠ 0)
    (rights : rightsOf (leNat bs (off + 0x10) 1) = none) : readRegion bs off = none := by
  simp only [readRegion, rights]
  rw [if_neg valid]

/-- R162: which entry fails its checks. -/
theorem readRegion_eq_none_iff (bs : List Byte) (off : Nat) : readRegion bs off = none ↔
    leNat bs (off + 8) 8 ≠ 0 ∧ (2 < leNat bs (off + 0x10) 1 ∨ 15 < leNat bs (off + 0x11) 1 ∨
      18446744073709551616 < leNat bs off 8 + leNat bs (off + 8) 8) := by
  by_cases empty : leNat bs (off + 8) 8 = 0
  · simp [readRegion_invalid_entry empty, empty]
  · rw [leNat_one bs (off + 0x11)]
    have bounds : ∀ r, rightsOf (leNat bs (off + 0x10) 1) = some r → leNat bs (off + 0x10) 1 ≤ 2 →
        (readRegion bs off = none ↔ leNat bs (off + 8) 8 ≠ 0 ∧ (2 < leNat bs (off + 0x10) 1 ∨
          15 < (byteAt bs (off + 0x11)).toNat ∨ 18446744073709551616 < leNat bs off 8 + leNat bs (off + 8) 8)) := by
      intro r rights small
      rw [readRegion_of_rights empty rights]
      split
      next inside => simp only [reduceCtorEq, false_iff]; omega
      next outside => simp only [true_iff]; omega
    obtain ⟨value, rights⟩ | ⟨value, rights⟩ | ⟨value, rights⟩ | ⟨value, rights⟩ :=
      rightsOf_cases (leNat bs (off + 0x10) 1)
    · exact bounds _ rights (by omega)
    · exact bounds _ rights (by omega)
    · exact bounds _ rights (by omega)
    · rw [readRegion_of_no_rights empty rights]
      simp only [true_iff]
      exact ⟨empty, .inl value⟩

/-- R162: the fields of an entry that passes. -/
theorem readRegion_eq_some {bs : List Byte} {off : Nat} {r : Region} (h : readRegion bs off = some r) :
    r.base.toNat = leNat bs off 8 ∧ r.length.toNat = leNat bs (off + 8) 8 ∧
      (leNat bs (off + 8) 8 ≠ 0 → r.key.toNat = leNat bs (off + 0x11) 1 ∧ (r.rights = .none ↔ leNat bs (off + 0x10) 1 = 0) ∧
        (r.rights = .read ↔ leNat bs (off + 0x10) 1 = 1) ∧ (r.rights = .readWrite ↔ leNat bs (off + 0x10) 1 = 2)) := by
  by_cases empty : leNat bs (off + 8) 8 = 0
  · rw [readRegion_invalid_entry empty] at h
    obtain rfl := Option.some.inj h
    exact ⟨toNat_ofNat_leNat rfl _ _, empty.symm, fun valid => absurd empty valid⟩
  · have fields : ∀ q, rightsOf (leNat bs (off + 0x10) 1) = some q → r.rights = q ∧ r.key = byteAt bs (off + 0x11) ∧
        r.base.toNat = leNat bs off 8 ∧ r.length.toNat = leNat bs (off + 8) 8 := by
      intro q rights
      rw [readRegion_of_rights empty rights, Option.ite_none_right_eq_some] at h
      obtain ⟨-, h⟩ := h
      obtain rfl := Option.some.inj h
      exact ⟨rfl, rfl, toNat_ofNat_leNat rfl _ _, toNat_ofNat_leNat rfl _ _⟩
    obtain ⟨value, rights⟩ | ⟨value, rights⟩ | ⟨value, rights⟩ | ⟨value, rights⟩ :=
      rightsOf_cases (leNat bs (off + 0x10) 1)
    · obtain ⟨right, key, base, length⟩ := fields _ rights
      exact ⟨base, length, fun _ => ⟨by rw [key, leNat_one], by rw [right, value]; decide⟩⟩
    · obtain ⟨right, key, base, length⟩ := fields _ rights
      exact ⟨base, length, fun _ => ⟨by rw [key, leNat_one], by rw [right, value]; decide⟩⟩
    · obtain ⟨right, key, base, length⟩ := fields _ rights
      exact ⟨base, length, fun _ => ⟨by rw [key, leNat_one], by rw [right, value]; decide⟩⟩
    · rw [readRegion_of_no_rights empty rights] at h
      cases h

theorem readRegions_eq_none_iff (bs : List Byte) : readRegions bs = none ↔
    ∃ i < 8, leNat bs (24 * i + 8) 8 ≠ 0 ∧ (2 < leNat bs (24 * i + 16) 1 ∨ 15 < leNat bs (24 * i + 17) 1 ∨
      18446744073709551616 < leNat bs (24 * i) 8 + leNat bs (24 * i + 8) 8) := by
  rw [readRegions, mapM_range_eq_none_iff]
  simp only [readRegion_eq_none_iff]

/-! ### The code table -/

/-- R67: one entry of the code table, or none where its length is out of range. -/
def readCode (bs : List Byte) (i : Nat) : Option CodeEntry :=
  if 1 ≤ leNat bs (4 * i) 1 ∧ leNat bs (4 * i) 1 ≤ 16 then
    some { length := leNat bs (4 * i) 1, value := BitVec.ofNat 16 (leNat bs (4 * i + 2) 2) }
  else none

theorem readCodeTable_eq (bs : List Byte) : readCodeTable bs = (List.range 130).mapM (readCode bs) := rfl

theorem readCode_eq_none_iff (bs : List Byte) (i : Nat) :
    readCode bs i = none ↔ leNat bs (4 * i) 1 = 0 ∨ 16 < leNat bs (4 * i) 1 := by
  rw [readCode]
  split
  next inside => simp only [reduceCtorEq, false_iff]; omega
  next outside => simp only [true_iff]; omega

theorem readCode_eq_some {bs : List Byte} {i : Nat} {x : CodeEntry} (h : readCode bs i = some x) :
    x.length = leNat bs (4 * i) 1 ∧ x.value.toNat = leNat bs (4 * i + 2) 2 := by
  rw [readCode, Option.ite_none_right_eq_some] at h
  obtain ⟨-, h⟩ := h
  obtain rfl := Option.some.inj h
  exact ⟨rfl, toNat_ofNat_leNat rfl _ _⟩

/-! ### The filter table -/

theorem actionOf_cases (n : Nat) :
    (n = 0 ∧ actionOf n = some .carry) ∨ (n = 1 ∧ actionOf n = some .drop) ∨ (n = 2 ∧ actionOf n = some .cue) ∨
      (2 < n ∧ actionOf n = none) := by
  match n with
  | 0 => exact .inl ⟨rfl, rfl⟩
  | 1 => exact .inr (.inl ⟨rfl, rfl⟩)
  | 2 => exact .inr (.inr (.inl ⟨rfl, rfl⟩))
  | n + 3 => exact .inr (.inr (.inr ⟨by omega, rfl⟩))

section Filter

variable {bs : List Byte} {f : Nat}

theorem readFilter_of_action {a : FilterAction} (action : actionOf (leNat bs (0x10 + 80 * f + 1) 1) = some a) :
    readFilter bs f =
      if flagAt bs (0x10 + 80 * f) = true ∧ ¬ (1 ≤ leNat bs (0x10 + 80 * f + 2) 1 ∧ leNat bs (0x10 + 80 * f + 2) 1 ≤ 64) then none
      else some
        { enabled := flagAt bs (0x10 + 80 * f), action := a, compare := leNat bs (0x10 + 80 * f + 2) 1
          mask := BitVec.ofNat 64 (leNat bs (0x10 + 80 * f + 8) 8)
          pattern := (List.range 64).map fun i => byteAt bs (0x10 + 80 * f + 0x10 + i) } := by
  simp only [readFilter, action]

theorem readFilter_of_no_action (action : actionOf (leNat bs (0x10 + 80 * f + 1) 1) = none) :
    readFilter bs f =
      if flagAt bs (0x10 + 80 * f) = true then none
      else some
        { enabled := false, action := .drop, compare := leNat bs (0x10 + 80 * f + 2) 1
          mask := BitVec.ofNat 64 (leNat bs (0x10 + 80 * f + 8) 8)
          pattern := (List.range 64).map fun i => byteAt bs (0x10 + 80 * f + 0x10 + i) } := by
  simp only [readFilter, action]

/-- R137: which filter fails its checks. -/
theorem readFilter_eq_none_iff : readFilter bs f = none ↔ flagAt bs (0x10 + 80 * f) = true ∧
    (2 < leNat bs (0x10 + 80 * f + 1) 1 ∨ leNat bs (0x10 + 80 * f + 2) 1 = 0 ∨ 64 < leNat bs (0x10 + 80 * f + 2) 1) := by
  have known : ∀ a, actionOf (leNat bs (0x10 + 80 * f + 1) 1) = some a → leNat bs (0x10 + 80 * f + 1) 1 ≤ 2 →
      (readFilter bs f = none ↔ flagAt bs (0x10 + 80 * f) = true ∧ (2 < leNat bs (0x10 + 80 * f + 1) 1 ∨
        leNat bs (0x10 + 80 * f + 2) 1 = 0 ∨ 64 < leNat bs (0x10 + 80 * f + 2) 1)) := by
    intro a action small
    rw [readFilter_of_action action]
    split
    next outside => simp only [true_iff]; exact ⟨outside.1, by omega⟩
    next inside =>
      simp only [reduceCtorEq, false_iff, not_and]
      intro enabled
      have range := not_not.1 fun outside => inside ⟨enabled, outside⟩
      omega
  obtain ⟨value, action⟩ | ⟨value, action⟩ | ⟨value, action⟩ | ⟨value, action⟩ :=
    actionOf_cases (leNat bs (0x10 + 80 * f + 1) 1)
  · exact known _ action (by omega)
  · exact known _ action (by omega)
  · exact known _ action (by omega)
  · rw [readFilter_of_no_action action]
    split
    next enabled => simp only [true_iff]; exact ⟨enabled, .inl value⟩
    next disabled => simp [disabled]

/-- R137: the fields of a filter that passes. -/
theorem readFilter_eq_some {x : Filter} (h : readFilter bs f = some x) :
    x.enabled = flagAt bs (0x10 + 80 * f) ∧
      (x.enabled = true → (x.action = .carry ↔ leNat bs (0x10 + 80 * f + 1) 1 = 0) ∧
        (x.action = .drop ↔ leNat bs (0x10 + 80 * f + 1) 1 = 1) ∧ (x.action = .cue ↔ leNat bs (0x10 + 80 * f + 1) 1 = 2)) ∧
      x.compare = leNat bs (0x10 + 80 * f + 2) 1 ∧ x.mask.toNat = leNat bs (0x10 + 80 * f + 8) 8 ∧
      ∀ i < 64, x.pattern[i]? = some (byteAt bs (0x10 + 80 * f + 16 + i)) := by
  have pattern : ∀ i < 64, ((List.range 64).map fun i => byteAt bs (0x10 + 80 * f + 0x10 + i))[i]? =
      some (byteAt bs (0x10 + 80 * f + 16 + i)) := fun i bound => by
    rw [List.getElem?_map, List.getElem?_range bound, Option.map_some]
  have fields : ∀ a, actionOf (leNat bs (0x10 + 80 * f + 1) 1) = some a →
      x.action = a ∧ x.enabled = flagAt bs (0x10 + 80 * f) ∧ x.compare = leNat bs (0x10 + 80 * f + 2) 1 ∧
        x.mask.toNat = leNat bs (0x10 + 80 * f + 8) 8 ∧
        ∀ i < 64, x.pattern[i]? = some (byteAt bs (0x10 + 80 * f + 16 + i)) := by
    intro a action
    rw [readFilter_of_action action, Option.ite_none_left_eq_some] at h
    obtain ⟨-, h⟩ := h
    obtain rfl := Option.some.inj h
    exact ⟨rfl, rfl, rfl, toNat_ofNat_leNat rfl _ _, pattern⟩
  obtain ⟨value, action⟩ | ⟨value, action⟩ | ⟨value, action⟩ | ⟨value, action⟩ :=
    actionOf_cases (leNat bs (0x10 + 80 * f + 1) 1)
  · obtain ⟨is, enabled, rest⟩ := fields _ action
    exact ⟨enabled, fun _ => by rw [is, value]; decide, rest⟩
  · obtain ⟨is, enabled, rest⟩ := fields _ action
    exact ⟨enabled, fun _ => by rw [is, value]; decide, rest⟩
  · obtain ⟨is, enabled, rest⟩ := fields _ action
    exact ⟨enabled, fun _ => by rw [is, value]; decide, rest⟩
  · rw [readFilter_of_no_action action, Option.ite_none_left_eq_some] at h
    obtain ⟨disabled, h⟩ := h
    obtain rfl := Option.some.inj h
    exact ⟨(Bool.eq_false_iff.2 disabled).symm, fun enabled => Bool.noConfusion enabled, rfl, toNat_ofNat_leNat rfl _ _, pattern⟩

end Filter

theorem readFilterTable_eq_none_iff (bs : List Byte) :
    readFilterTable bs = none ↔ 1 < leNat bs 1 1 ∨ ∃ f < 6, readFilter bs f = none := by
  rw [← mapM_range_eq_none_iff]
  unfold readFilterTable
  cases filters : (List.range 6).mapM (readFilter bs) with
  | none => simp
  | some fs =>
    dsimp only
    split
    next inside => simp only [reduceCtorEq, or_false, false_iff]; omega
    next outside => simp only [true_iff]; omega

theorem readFilterTable_eq_some {bs : List Byte} {t : FilterTable} (h : readFilterTable bs = some t) :
    t.broadcast = flagAt bs 0 ∧ t.defaultCarry = decide (leNat bs 1 1 = 0) ∧ t.groups.toNat = leNat bs 8 8 ∧
      t.filters.length = 6 ∧ ∀ (f : Nat) (x : Filter), t.filters[f]? = some x → readFilter bs f = some x := by
  unfold readFilterTable at h
  cases filters : (List.range 6).mapM (readFilter bs) with
  | none =>
    rw [filters] at h
    cases h
  | some fs =>
    rw [filters] at h
    obtain ⟨-, h⟩ := Option.ite_none_right_eq_some.1 h
    obtain rfl := Option.some.inj h
    obtain ⟨length, entries⟩ := mapM_range_getElem? filters
    exact ⟨rfl, rfl, toNat_ofNat_leNat rfl _ _, length, entries⟩

/-! ### The settings -/

/-- R173 step 3: the settings that pass their checks. -/
theorem settingsValid_iff (bs : List Byte) (g : Settings) : settingsValid bs g = true ↔
    10000 ≤ g.period ∧ g.period ≤ 100000 ∧ 256 ≤ g.cpi ∧ g.cpi ≤ 8192 ∧
      (g.sMax = 0 ∨ (6 ≤ g.sMax ∧ g.sMax ≤ g.cpi / 4)) ∧ (∀ kf ∈ [g.kfKey, g.kfPred, g.kfBi], 1 ≤ kf ∧ kf ≤ 32) ∧
      g.deadZone ≤ 7 ∧ 4 ≤ g.reportSlots ∧ g.reportSlots ≤ 1024 ∧ leNat bs 0x36 1 ≤ 15 ∧ leNat bs 0x37 1 ≤ 15 ∧
      ∀ x ∈ [g.reportBase, g.programTable, g.codeTable, g.filterTable, g.regionTable], x ≠ 0 ∧ x.toNat % 8 = 0 := by
  simp only [settingsValid, Bool.and_eq_true, decide_eq_true_eq, alignedAddress_iff, List.forall_mem_cons]
  constructor
  · rintro ⟨⟨⟨⟨⟨⟨⟨⟨⟨⟨⟨⟨⟨⟨period, cpi⟩, sMax⟩, key⟩, pred⟩, bi⟩, deadZone⟩, reportBase⟩, slots⟩, first⟩, last⟩, programs⟩,
      codes⟩, filters⟩, regions⟩
    exact ⟨period.1, period.2, cpi.1, cpi.2, sMax, ⟨key, pred, bi, List.forall_mem_nil _⟩, deadZone, slots.1, slots.2, first, last,
      reportBase, programs, codes, filters, regions, List.forall_mem_nil _⟩
  · rintro ⟨leastPeriod, mostPeriod, leastCpi, mostCpi, sMax, ⟨key, pred, bi, -⟩, deadZone, leastSlots, mostSlots, first, last,
      reportBase, programs, codes, filters, regions, -⟩
    exact ⟨⟨⟨⟨⟨⟨⟨⟨⟨⟨⟨⟨⟨⟨⟨leastPeriod, mostPeriod⟩, leastCpi, mostCpi⟩, sMax⟩, key⟩, pred⟩, bi⟩, deadZone⟩, reportBase⟩,
      leastSlots, mostSlots⟩, first⟩, last⟩, programs⟩, codes⟩, filters⟩, regions⟩

end Sys2Proof.Machine

/-! PROOFS. START: its reads, the table each one puts in force, and its completion (10, R171 to R174). -/

namespace Sys2Proof.Machine

/-! ### The reads -/

section Read

variable {s : State} {step : StartStep} {d addr : Long} {key : Option Byte} {length : Nat}

theorem State.startRead_of_ok {region : Byte} (passes : checkAccess s.link.regions (readRequest .start key addr length) = .ok region) :
    s.startRead step d key addr length = { s with
      control := { s.control with start := some (.reading step d) }
      link := { s.link with
        accesses := s.link.accesses ++
          [{ tag := s.link.nextTag, agent := .start, kind := .read, addr := addr, length := length, key := key
             region := region, data := [] }]
        nextTag := s.link.nextTag + 1 } } := by
  rw [State.startRead, State.issue_of_ok (s := s.setStart (.reading step d)) passes]
  rfl

theorem State.startRead_of_error {e : AccessResult × Byte}
    (refused : checkAccess s.link.regions (readRequest .start key addr length) = .error e) :
    s.startRead step d key addr length = s.startEnds .directoryAccess := by
  rw [State.startRead, State.issue_of_error (s := s.setStart (.reading step d)) (result := e.1) (region := e.2) refused]
  rfl

end Read

theorem exec_start_idle {s : State} (free : s.control.inFlight = none) (idle : s.control.device = .idle) :
    exec .start s = .next (s.accept .start).startRun := by
  show Host.Outcome.next (s.command .start _) = _
  rw [State.command_accepted free (by rw [idle]; rfl)]

theorem exec_startComplete {s : State} {r : CmdResult} (ended : s.control.start = some (.ended r)) :
    exec .startComplete s = .next (s.startFinish r) := by
  show execStartComplete s = _
  simp only [execStartComplete, ended]

/-! ### The ends of the reads -/

section Reply

variable {s : State} {d : Long} {data : List Byte}

theorem State.startReply_failed {step : StartStep} (reading : s.control.start = some (.reading step d)) (f : Failure) :
    s.startReply (.failed f) = s.startEnds .directoryAccess := by
  unfold State.startReply
  rw [reading]

theorem State.startReply_directory (reading : s.control.start = some (.reading .directory d)) :
    s.startReply (.done data) = s.startSettings d data := by
  unfold State.startReply
  rw [reading]

theorem State.startReply_regions (reading : s.control.start = some (.reading .regions d)) :
    s.startReply (.done data) = s.startRegions d data := by
  unfold State.startReply
  rw [reading]

theorem State.startReply_codes (reading : s.control.start = some (.reading .codes d)) :
    s.startReply (.done data) = s.startCodes d data := by
  unfold State.startReply
  rw [reading]

theorem State.startReply_filters (reading : s.control.start = some (.reading .filters d)) :
    s.startReply (.done data) = s.startFilters data := by
  unfold State.startReply
  rw [reading]

end Reply

/-- Settles O29. -/
theorem startReadsTheDirectory : Obligations.StartReadsTheDirectory := by
  unfold Obligations.StartReadsTheDirectory
  refine ⟨fun s free idle => ⟨fun aligned => ?begins, fun misaligned => ?fails⟩,
    fun s pre post a data step d inFlight before behind agent reading => ?ends,
    fun data => ⟨readRegions_eq_none_iff data, fun table loaded => ?regionTable⟩,
    fun data => ⟨?codesFail, fun table loaded => ?codeTable⟩, fun data => ⟨?filtersFail, fun table loaded => ?filterTable⟩⟩
  case begins =>
    rw [exec_start_idle free idle, State.startRun]
    refine congrArg Host.Outcome.next ((if_pos (alignedAddress_iff.2 aligned)).trans ?_)
    rw [State.startRead_of_ok (region := 0xFF) rfl]
    rfl
  case fails =>
    have refused : ¬ alignedAddress s.control.directory = true := fun aligned =>
      misaligned.elim (alignedAddress_iff.1 aligned).1 fun other => other (alignedAddress_iff.1 aligned).2
    rw [exec_start_idle free idle, State.startRun]
    exact congrArg Host.Outcome.next (if_neg refused)
  case ends =>
    intro rest ends reads
    have deliver : ∀ r, rest.deliver a.agent r = rest.startReply r := fun r => by rw [agent]; rfl
    refine ⟨fun c bus => ?_, fun read length => ?_⟩
    · refine (exec_busEnd inFlight before behind bus).trans (congrArg Host.Outcome.next ((deliver _).trans ?_))
      exact State.startReply_failed (s := rest) reading _
    have done : exec (.accessCompletion a.tag data) s = .next (rest.startReply (.done data)) := by
      refine (exec_accessCompletion_read inFlight before behind read data).trans (congrArg Host.Outcome.next ((deliver _).trans ?_))
      rw [exactly_of_length length]
    refine ⟨fun at_step => ?directory, fun at_step => ?regions, fun at_step => ?codes, fun at_step => ?filters⟩
    case directory =>
      subst at_step
      intro long g inRange
      have reply := State.startReply_directory (s := rest) (data := data) reading
      refine ⟨fun valid => ?_, fun invalid => ?_⟩
      · rw [done, reply, State.startSettings]
        refine congrArg Host.Outcome.next ((if_pos ((settingsValid_iff data g).2 valid)).trans ?_)
        exact State.startRead_of_ok rfl
      · rw [done, reply, State.startSettings]
        exact congrArg Host.Outcome.next (if_neg fun valid => invalid ((settingsValid_iff data g).1 valid))
    case regions =>
      subst at_step
      have reply := State.startReply_regions (s := rest) (data := data) reading
      refine ⟨fun bad => ?_, fun table good => ⟨fun region passes => ?_, fun e refused => ?_⟩⟩
      · rw [done, reply, State.startRegions, bad]
        rfl
      · rw [done, reply, State.startRegions, good]
        exact congrArg Host.Outcome.next (State.startRead_of_ok passes)
      · rw [done, reply, State.startRegions, good]
        exact congrArg Host.Outcome.next (State.startRead_of_error refused)
    case codes =>
      subst at_step
      have reply := State.startReply_codes (s := rest) (data := data) reading
      refine ⟨fun bad => ?_, fun table good => ⟨fun region passes => ?_, fun e refused => ?_⟩⟩
      · rw [done, reply, State.startCodes, bad]
        rfl
      · rw [done, reply, State.startCodes, good]
        exact congrArg Host.Outcome.next (State.startRead_of_ok passes)
      · rw [done, reply, State.startCodes, good]
        exact congrArg Host.Outcome.next (State.startRead_of_error refused)
    case filters =>
      subst at_step
      have reply := State.startReply_filters (s := rest) (data := data) reading
      refine ⟨fun bad => ?_, fun table good => ?_⟩
      · rw [done, reply, State.startFilters, bad]
        rfl
      · rw [done, reply, State.startFilters, good]
        rfl
  case regionTable =>
    obtain ⟨length, entries⟩ := mapM_range_getElem? loaded
    exact ⟨length, fun i r found => readRegion_eq_some (entries i r found)⟩
  case codesFail =>
    rw [readCodeTable_eq, mapM_range_eq_none_iff]
    simp only [readCode_eq_none_iff]
  case codeTable =>
    obtain ⟨length, entries⟩ := mapM_range_getElem? ((readCodeTable_eq data).symm.trans loaded)
    exact ⟨length, fun i x found => readCode_eq_some (entries i x found)⟩
  case filtersFail =>
    rw [readFilterTable_eq_none_iff]
    simp only [readFilter_eq_none_iff]
    exact Iff.rfl
  case filterTable =>
    obtain ⟨broadcast, default, groups, length, entries⟩ := readFilterTable_eq_some loaded
    refine ⟨broadcast, default, groups, length, fun f x found => ?_⟩
    obtain ⟨enabled, action, compare, mask, pattern⟩ := readFilter_eq_some (entries f x found)
    exact ⟨enabled, fun on => ⟨(action on).1, (action on).2.1, (action on).2.2, compare, mask, pattern⟩⟩

/-! ### START's completion -/

theorem State.startFinish_failed (s : State) {r : CmdResult} (failed : r ≠ .ok) :
    s.startFinish r = { s with control := { s.control with
      device := .idle, start := none, notice := false, drainEnding := false, inFlight := none, last := some .start
      result := r, events := s.control.events ||| 1
      line := ((s.control.events ||| 1) &&& s.control.enable) != 0 } } := by
  rw [State.startFinish, if_neg failed]
  rfl

/-- R174: the run begins with every block at its own rule's values and no intake. -/
def State.runBegun (s : State) : State :=
  ((({ s with control := { s.control with start := none, notice := false, drainEnding := false } } : State).initRun).setDevice
    .running).complete (some .start) .ok

theorem State.startFinish_ok (s : State) : s.startFinish .ok = s.runBegun.beginIntake := by
  rw [State.startFinish, if_pos rfl]
  rfl

theorem State.runBegun_ctx (s : State) (p : Program) : s.runBegun.ctx p = (s.ctx p).started :=
  PerProgram.look_tabulate _ p

/-! ### The first intake of a run -/

/-- From r on an intake of an interval has come to programs that are OFF and read nothing: the live reads alone happened. -/
structure QuietIntake (r : State) (n : Word) (t : State) : Prop where
  rest : t = { r with
    controller := { r.controller with intake := t.controller.intake, intakeNotes := t.controller.intakeNotes }, link := t.link }
  regions : t.link.regions = r.link.regions
  intake : ∃ i, t.controller.intake = some i ∧ i.interval = n ∧ i.halted = false ∧ (i.phase = .live ∨ i.phase = .allDone)

/-- The same of a step, which ended no read but a refused one. -/
def QuietCont (r : State) (n : Word) (c : Cont) : Prop :=
  QuietIntake r n c.1 ∧ ∀ reply, c.2 = some reply → ∃ f, reply = .failed f

section Quiet

variable {r s : State} {n : Word}

theorem QuietIntake.ctx (h : QuietIntake r n s) (p : Program) : s.ctx p = r.ctx p := by
  rw [h.rest]
  rfl

theorem State.issue_reply (s : State) (x : Request) (reply : Reply) (h : (s.issue x).2 = some reply) : ∃ f, reply = .failed f := by
  obtain ⟨_, _, issued⟩ | ⟨_, _, _, refused⟩ := s.issue_cases x
  · rw [issued] at h
    cases h
  · rw [refused] at h
    exact ⟨_, (Option.some.inj h).symm⟩

theorem QuietIntake.set (h : QuietIntake r n s) {i : Intake} (notes : PerProgram Notes) (interval : i.interval = n)
    (open_ : i.halted = false) (phase : i.phase = .live ∨ i.phase = .allDone) :
    QuietIntake r n (s.setController { s.controller with intake := some i, intakeNotes := notes }) where
  rest := by
    have same := h.rest
    conv_lhs => rw [State.setController, same]
    rfl
  regions := h.regions
  intake := ⟨i, rfl, interval, open_, phase⟩

theorem QuietIntake.issue (h : QuietIntake r n s) (x : Request) : QuietCont r n (s.issue x) := by
  refine ⟨?_, s.issue_reply x⟩
  obtain ⟨l, issued⟩ := s.issue_setLink x
  have regions := s.issue_regions x
  rw [issued] at regions ⊢
  refine ⟨?_, regions.trans h.regions, h.intake⟩
  conv_lhs => rw [State.setLink, h.rest]
  rfl

theorem QuietIntake.beginProgram (h : QuietIntake r n s) (p : Program) : QuietCont r n (s.beginProgram p) := by
  obtain ⟨i, intake, interval, open_, -⟩ := h.intake
  rw [State.beginProgram]
  simp only [intake, Option.map_some]
  exact QuietIntake.issue (h.set (i := { i with program := p, takes := 0, phase := .live }) s.controller.intakeNotes interval open_
    (.inl rfl)) _

theorem QuietIntake.nextProgram (h : QuietIntake r n s) : QuietCont r n s.nextProgram := by
  obtain ⟨i, intake, interval, open_, -⟩ := h.intake
  simp only [State.nextProgram, intake]
  rw [if_neg (by simp [open_])]
  split
  · rw [State.atPhase_of_intake intake]
    exact ⟨h.set (i := { i with phase := .allDone }) s.controller.intakeNotes interval open_ (.inr rfl), fun _ h => nomatch h⟩
  · exact h.beginProgram _

variable (off : ∀ p, (r.ctx p).state = .off) (unread : ∀ p, (r.ctx p).live = none)

include off unread

/-- A live read that is refused finds an OFF program that has never been read: the next program follows. -/
theorem QuietIntake.step (h : QuietIntake r n s) (f : Failure) : QuietCont r n (s.intakeStep (.failed f)) := by
  obtain ⟨i, intake, interval, open_, phase⟩ := h.intake
  obtain live | ended := phase
  · have noted : QuietIntake r n (s.intakeNote i.program fun n => { n with entryUnreadable := true }) := by
      have same := h.set (i := i) (s.controller.intakeNotes.modify i.program fun n => { n with entryUnreadable := true })
        interval open_ (.inl live)
      rw [← intake] at same
      exact same
    have stays : (s.intakeNote i.program fun n => { n with entryUnreadable := true }).transition i.program =
        (s.intakeNote i.program fun n => { n with entryUnreadable := true }).nextProgram := by
      have mode : (s.intakeNote i.program fun n => { n with entryUnreadable := true }).desiredMode i.program = .off := by
        simp only [State.desiredMode, noted.ctx, unread]
      simp only [State.transition, mode, noted.ctx, off]
    have reply : s.intakeStep (.failed f) =
        (s.intakeNote i.program fun n => { n with entryUnreadable := true }).transition i.program := by
      simp only [State.intakeStep, intake, live, open_, State.liveReply, State.handCue, noted.ctx, unread]
      rfl
    rw [reply, stays]
    exact noted.nextProgram
  · simp only [State.intakeStep, intake, ended]
    exact ⟨h, fun _ h => nomatch h⟩

theorem QuietCont.run (fuel : Nat) : ∀ c : Cont, QuietCont r n c → QuietIntake r n (State.intakeRun fuel c) := by
  induction fuel with
  | zero => exact fun _ h => h.1
  | succ fuel ih =>
    intro c h
    match c, h with
    | (s, none), h => exact h.1
    | (s, some reply), h =>
      obtain ⟨f, rfl⟩ := h.2 reply rfl
      exact ih _ (h.1.step off unread f)

/-- R1, R174: the first intake of a run reads live parts, and reads on where those reads are refused. -/
theorem State.beginIntake_quiet : QuietIntake r r.timer.number r.beginIntake := by
  unfold State.beginIntake
  refine QuietCont.run off unread _ _ ?_
  refine QuietIntake.beginProgram ⟨?_, ?_, ?_⟩ 0
  · rfl
  · rfl
  · exact ⟨_, rfl, rfl, rfl, .inl rfl⟩

end Quiet

/-- Settles O30. -/
theorem startCompletionBeginsTheRun : Obligations.StartCompletionBeginsTheRun := by
  unfold Obligations.StartCompletionBeginsTheRun
  intro s r ended
  refine ⟨fun failed => ?failed, fun ok => ?ok⟩
  case failed => rw [exec_startComplete ended, State.startFinish_failed s failed]
  case ok =>
    subst ok
    have begun : QuietIntake s.runBegun 0 s.runBegun.beginIntake :=
      State.beginIntake_quiet (fun p => by rw [s.runBegun_ctx]; rfl) (fun p => by rw [s.runBegun_ctx]; rfl)
    refine ⟨s.runBegun.beginIntake, (exec_startComplete ended).trans (congrArg Host.Outcome.next s.startFinish_ok), ?_⟩
    have rest := begun.rest
    have ctx : ∀ p, s.runBegun.beginIntake.ctx p = (s.ctx p).started := fun p => (begun.ctx p).trans (s.runBegun_ctx p)
    obtain ⟨i, intake, interval, -⟩ := begun.intake
    refine ⟨(congrArg State.control rest :), (congrArg State.timer rest :), begun.regions, fun p => ?_, ⟨i, intake, interval⟩,
      (congrArg State.allocator rest :), (congrArg State.recoder rest :), (congrArg State.keys rest :),
      (congrArg State.side rest :), (congrArg State.store rest :), (congrArg State.line rest :), (congrArg State.reporter rest :)⟩
    rw [ctx p]
    exact ⟨rfl, rfl, rfl, rfl, rfl, rfl, rfl, rfl⟩

end Sys2Proof.Machine

/-! PROOFS. What a boundary closes in every block, written out (10, R175). -/

namespace Sys2Proof.Machine

/-! ### The recoder -/

/-- R89: the figures of a job that ends LATE. -/
def Job.lateFigures (j : Job) : JobFigures := { outcome := some .late, pass := j.pass, cells := 1, meanQ := 0 }

/-- R89: the report of a job that ends LATE. -/
def Job.lateReport (j : Job) : Report :=
  { program := j.program, slot := j.slot, takeNumber := j.takeNumber, interval := j.interval
    body := .finish .late j.pass 8 1 0 0 }

/-- R87, R89: the figures after every job given has ended LATE. -/
def lateFigures (jobs : List Job) (figures : PerProgram (Option JobFigures)) : PerProgram (Option JobFigures) :=
  jobs.foldl (fun figures j => figures.put j.program (some j.lateFigures)) figures

theorem State.foldl_lateJob (jobs : List Job) (s : State) : jobs.foldl State.lateJob s = { s with
    controller := { s.controller with reports := s.controller.reports ++ jobs.map Job.lateReport }
    recoder := { s.recoder with figures := lateFigures jobs s.recoder.figures } } := by
  induction jobs generalizing s with
  | nil => simp only [List.foldl_nil, List.map_nil, List.append_nil, lateFigures]
  | cons j jobs ih =>
    rw [List.foldl_cons, ih, List.map_cons, List.append_cons]
    rfl

theorem State.lateJobs_eq (s : State) : s.lateJobs = { s with
    link := { s.link with accesses := s.link.accesses.filter fun a => !a.agent.isEngine }
    controller := { s.controller with reports := s.controller.reports ++ s.recoder.jobs.map Job.lateReport }
    recoder := { s.recoder with
      queue := [], re0 := { s.recoder.re0 with phase := .idle }, re1 := { s.recoder.re1 with phase := .idle }
      figures := lateFigures s.recoder.jobs s.recoder.figures } } := by
  rw [State.lateJobs, State.foldl_lateJob]
  rfl

/-! ### The allocator -/

/-- R59, R60: an entry appended to a program's delivered list. -/
def Allocator.appended (delay : Program → Nat) (a : Allocator) (p : Program) (size : Nat) : Allocator :=
  { a with delivered := a.delivered.modify p (appendDelivered (delay p) · size) }

/-- R60, R63: a completion of the open interval taken. -/
def Allocator.taken (delay : Program → Nat) (a : Allocator) (r : CompletionReport) : Allocator :=
  { a.appended delay r.program r.size with
    debt := a.debt.put r.program r.debt, reported := r.program :: a.reported }

/-- R61: every completion sent before the boundary taken. -/
def Allocator.sentTaken (delay : Program → Nat) (a : Allocator) : Allocator :=
  (a.reports.filter a.isCurrent).foldl (Allocator.taken delay) { a with reports := a.reports.filter fun r => !a.isCurrent r }

/-- R57, R61: the delivered lists after the entry of 8 of every program that has reported nothing. -/
def Allocator.unreportedAppended (delay : Program → Nat) (a : Allocator) : Allocator :=
  a.unreported.foldl (fun a p => a.appended delay p 8) a

/-- R57, R61, R62, R64: the allocator with its interval closed. -/
def Allocator.closed (delay : Program → Nat) (a : Allocator) : Allocator :=
  let b := ({ a.sentTaken delay with inFlight := none } : Allocator).unreportedAppended delay
  if b.current.isNone then { b with debt := PerProgram.fill 0 } else b

/-- The delay a program was started with. -/
def State.delayOf (s : State) (p : Program) : Nat := (s.ctx p).fixed.delay

theorem State.foldl_takeCompletionReport (reports : List CompletionReport) (s : State) :
    reports.foldl State.takeCompletionReport s =
      s.setAllocator (reports.foldl (Allocator.taken s.delayOf) s.allocator) := by
  induction reports generalizing s with
  | nil => rfl
  | cons r reports ih => exact ih (s.takeCompletionReport r)

theorem State.foldl_append (ps : List Program) (s : State) :
    ps.foldl (fun s p => s.append p 8) s =
      s.setAllocator (ps.foldl (fun a p => Allocator.appended s.delayOf a p 8) s.allocator) := by
  induction ps generalizing s with
  | nil => rfl
  | cons p ps ih => exact ih (s.append p 8)

theorem State.takeSentReports_closed (s : State) :
    s.takeSentReports = s.setAllocator (s.allocator.sentTaken s.delayOf) :=
  State.foldl_takeCompletionReport _ _

theorem State.closeInterval_closed (s : State) : s.closeInterval = s.setAllocator (s.allocator.closed s.delayOf) := by
  unfold State.closeInterval
  rw [State.takeSentReports_closed]
  dsimp only
  rw [State.foldl_append]
  unfold Allocator.closed
  dsimp only
  exact (apply_ite (State.setAllocator s) _ _ _).symm

/-! ### The side path and the line -/

theorem State.endReservation_eq (s : State) : s.endReservation = { s with
    store := s.sideStoreBack
    link := { s.link with accesses := s.link.accesses.filter fun a => !(a.agent == .side) }
    side := { s.side with
      queue := ((s.side.reserved.filter fun r => r.state ≠ .built).map Reserved.message) ++ s.side.queue
      reserved := [], build := none, stopped := false } } := by
  unfold State.endReservation State.sideStoreBack
  cases s.side.build with
  | none => rfl
  | some b => rfl

/-- R156: the control unit once the line has reported the entries it discards. -/
def Line.shortfallRaised (l : Line) (c : Control) : Control :=
  if 0 < l.unsentTotal then c.drive (c.events ||| EventFlag.lineShortfall.bit) c.enable else c

theorem State.swapLine_eq (s : State) : s.swapLine =
    ({ s with store := s.store.giveBack s.line.sendingPages, line := s.line.swap, control := s.line.shortfallRaised s.control },
      { nulls := s.line.nulls, shortfall := s.line.unsentTotal
        discards := PerProgram.tabulate fun p => decide (0 < (s.line.sending.look p).unsent)
        freePages := (s.store.giveBack s.line.sendingPages).free.length }) := by
  have shortfall : s.line.swap.shortfall = s.line.unsentTotal := rfl
  have discards : s.line.swap.discards = PerProgram.tabulate fun p => decide (0 < (s.line.sending.look p).unsent) := rfl
  unfold State.swapLine Line.shortfallRaised
  rw [State.returnPages_eq]
  simp only [State.setStore_store, State.setLine_line, shortfall, discards]
  generalize s.line.swap = swapped
  generalize s.store.giveBack s.line.sendingPages = store
  split
  · rfl
  · rfl

/-- R119, R123: the cell store after the jobs' pages have returned. -/
def Store.jobsBack (st : Store) (jobs : List Job) : Store := jobs.foldl (fun store j => store.giveBack j.pages) st

/-- R123: the store whose free pages the line reports. -/
def State.storeReported (s : State) (lineFirst : Bool) : Store :=
  (if lineFirst then s.sideStoreBack else s.sideStoreBack.jobsBack s.recoder.jobs).giveBack s.line.sendingPages

/-- R119, R123, R144: the store after every return of a boundary. -/
def State.storeAtBoundary (s : State) (lineFirst : Bool) : Store :=
  if lineFirst then (s.storeReported true).jobsBack s.recoder.jobs else s.storeReported false

/-! ### Every block -/

/-- Agents whose accesses a boundary ends. -/
theorem filter_endsAtBoundary (accesses : List Access) :
    ((accesses.filter fun a => !a.agent.isEngine).filter fun a => !(a.agent == .side)) =
      accesses.filter fun a => a.agent ≠ .side ∧ a.agent ≠ .engine .re0 ∧ a.agent ≠ .engine .re1 := by
  rw [List.filter_filter]
  apply List.filter_congr
  intro a _
  match a.agent with
  | .engine .re0 => rfl
  | .engine .re1 => rfl
  | .finish p => simp [Agent.isEngine]
  | .start => rfl
  | .filterLoad => rfl
  | .regionReload => rfl
  | .probe => rfl
  | .pageTest => rfl
  | .intake => rfl
  | .halt => rfl
  | .status => rfl
  | .side => rfl
  | .report => rfl
  | .faultRecord => rfl

/-- R175: the state in which every block has ended its work for the closing interval and the line's lists are exchanged. -/
def State.listsClosed (s : State) (lineFirst : Bool) : State :=
  { s with
    control := s.line.shortfallRaised s.control
    link := { s.link with
      accesses := s.link.accesses.filter fun a => a.agent ≠ .side ∧ a.agent ≠ .engine .re0 ∧ a.agent ≠ .engine .re1 }
    controller := { s.controller with reports := s.controller.reports ++ s.recoder.jobs.map Job.lateReport }
    allocator := s.allocator.closed s.delayOf
    recoder := { s.recoder with
      queue := [], re0 := { s.recoder.re0 with phase := .idle }, re1 := { s.recoder.re1 with phase := .idle }
      figures := lateFigures s.recoder.jobs s.recoder.figures, spare := 0 }
    side := { s.side with
      queue := ((s.side.reserved.filter fun r => r.state ≠ .built).map Reserved.message) ++ s.side.queue
      reserved := [], build := none, stopped := false }
    store := s.storeAtBoundary lineFirst
    line := s.line.swap }

/-- R156: the figures that the line hands over at a boundary. -/
def State.lineFigures (s : State) (lineFirst : Bool) : LineFigures :=
  { nulls := s.line.nulls, shortfall := s.line.unsentTotal
    discards := PerProgram.tabulate fun p => decide (0 < (s.line.sending.look p).unsent)
    freePages := (s.storeReported lineFirst).free.length }

/-- R175: the blocks before the line and the store exchange their lists. -/
def State.workClosed (s : State) : State :=
  { s with
    link := { s.link with
      accesses := s.link.accesses.filter fun a => a.agent ≠ .side ∧ a.agent ≠ .engine .re0 ∧ a.agent ≠ .engine .re1 }
    controller := { s.controller with reports := s.controller.reports ++ s.recoder.jobs.map Job.lateReport }
    allocator := s.allocator.closed s.delayOf
    recoder := { s.recoder with
      queue := [], re0 := { s.recoder.re0 with phase := .idle }, re1 := { s.recoder.re1 with phase := .idle }
      figures := lateFigures s.recoder.jobs s.recoder.figures, spare := 0 }
    side := { s.side with
      queue := ((s.side.reserved.filter fun r => r.state ≠ .built).map Reserved.message) ++ s.side.queue
      reserved := [], build := none, stopped := false }
    store := s.sideStoreBack }

theorem State.workClosed_eq (s : State) :
    (s.lateJobs.setRecoder { s.lateJobs.recoder with spare := 0 }).closeInterval.endReservation = s.workClosed := by
  rw [State.lateJobs_eq, State.closeInterval_closed, State.endReservation_eq]
  unfold State.workClosed
  rw [← filter_endsAtBoundary]
  dsimp only [State.setAllocator, State.setRecoder, State.sideStoreBack]
  congr 1

theorem State.closedLists_eq (s : State) (lineFirst : Bool) :
    s.closedLists lineFirst = (s.listsClosed lineFirst, s.lineFigures lineFirst) := by
  unfold State.closedLists
  rw [State.workClosed_eq]
  cases lineFirst with
  | true =>
    rw [State.swapLists_true, State.swapLine_eq, State.returnJobs_eq]
    simp only [State.setStore, State.workClosed, State.listsClosed, State.lineFigures, State.storeAtBoundary,
      State.storeReported, Store.jobsBack, if_true]
    congr 2
  | false =>
    rw [State.swapLists_false, State.returnJobs_eq, State.swapLine_eq]
    simp only [State.setStore, State.workClosed, State.listsClosed, State.lineFigures, State.storeAtBoundary,
      State.storeReported, Store.jobsBack, Bool.false_eq_true, if_false]
    congr 2

/-- R175: the state in which the interval is closed and the next one is open. -/
theorem State.intervalClosed_eq (s : State) (lineFirst : Bool) : s.intervalClosed lineFirst = { s.listsClosed lineFirst with
    controller := { (s.listsClosed lineFirst).controller with notes := PerProgram.fill Notes.clear }
    side := { (s.listsClosed lineFirst).side with faultNote := PerProgram.fill false, cueNote := PerProgram.fill false }
    store := { s.storeAtBoundary lineFirst with correctable := 0, errorNote := false }
    recoder := { (s.listsClosed lineFirst).recoder with figures := PerProgram.fill none }
    allocator := { s.allocator.closed s.delayOf with current := none, reported := [], isOpen := true } } := by
  rw [State.intervalClosed, State.closedLists_eq]
  simp only [State.clearFigures, State.openInterval, State.setController, State.setSide, State.setStore, State.setRecoder,
    State.setAllocator, State.listsClosed]

/-- R175: the next interval begun, before the report and the intake. -/
def State.nextInterval (s : State) (lineFirst : Bool) : State :=
  { s.intervalClosed lineFirst with timer := { s.timer with number := s.timer.number + 1 } }

theorem State.boundary_nextInterval (s : State) (lineFirst : Bool) :
    s.boundary lineFirst = ((s.nextInterval lineFirst).reportBoundary (s.closedFigures lineFirst)).intakeAtBoundary := by
  have timer : (s.intervalClosed lineFirst).timer = s.timer := by simp only [State.intervalClosed_eq, State.listsClosed]
  rw [State.boundary_eq, timer, State.setTimer, State.nextInterval]

theorem exec_boundary_running {s : State} (running : s.timer.running = true) (lineFirst : Bool) :
    exec (.boundary { lineFirst := lineFirst, allocationFirst := false }) s = .next (s.boundary lineFirst) :=
  if_pos running

end Sys2Proof.Machine

/-! PROOFS. The bytes of a report, its accesses, and the end of a drain (O60). -/

namespace Sys2Proof.Machine

/-! ### The bytes of a report -/

/-- R181: the fields of a section behind each other. -/
theorem sectionBytes_eq (g : SectionFigures) : sectionBytes g =
    leBytes 1 g.program.val ++ (leBytes 1 (programStateCode g.state) ++ (leBytes 1 (lastOutcomeCode g.outcome) ++
      (leBytes 1 g.pass ++ (leBytes 2 g.budget ++ (leBytes 2 g.cells ++ (leBytes 1 g.meanQ ++ (leBytes 1 g.debt ++
      (leBytes 2 g.flags.toNat ++ (leBytes 4 g.delivered ++ zeros 16))))))))) := by
  simp only [sectionBytes, List.append_assoc]

theorem sectionBytes_length (g : SectionFigures) : (sectionBytes g).length = 32 := by
  simp only [sectionBytes, List.length_append, leBytes_length, zeros, List.length_replicate]

theorem sections_length (l : List SectionFigures) : (l.flatMap sectionBytes).length = 32 * l.length := by
  induction l with
  | nil => rfl
  | cons g l ih =>
    rw [List.flatMap_cons, List.length_append, sectionBytes_length, ih, List.length_cons]
    omega

/-- R181: the fields of a section stand behind the sections before it. -/
theorem leNat_sections {l : List SectionFigures} {i off n : Nat} {g : SectionFigures} (h : l[i]? = some g) (fits : off + n ≤ 32) :
    leNat (l.flatMap sectionBytes) (32 * i + off) n = leNat (sectionBytes g) off n := by
  induction l generalizing i with
  | nil => cases h
  | cons x l ih =>
    rw [List.flatMap_cons]
    cases i with
    | zero =>
      cases h
      rw [Nat.mul_zero, Nat.zero_add, leNat_append_left (by rwa [sectionBytes_length])]
    | succ i =>
      rw [leNat_append_right (by rw [sectionBytes_length]; omega), sectionBytes_length, ← ih h]
      congr 1
      omega

theorem programStateCode_lt (state : ProgramState) : programStateCode state < 256 := by cases state <;> decide

theorem lastOutcomeCode_eq (o : Option Outcome) : lastOutcomeCode o = (o.map outcomeCode).getD 255 := by cases o <;> rfl

theorem lastOutcomeCode_lt (o : Option Outcome) : lastOutcomeCode o < 256 := by
  cases o with
  | none => decide
  | some o => exact outcomeCode_lt o

theorem half_mod (x : BitVec 16) : x.toNat % 256 ^ 2 = x.toNat := Nat.mod_eq_of_lt x.isLt

theorem sectionBytes_fields (g : SectionFigures) :
    let bytes := sectionBytes g
    leNat bytes 0 1 = g.program.val ∧ leNat bytes 1 1 = programStateCode g.state ∧
      leNat bytes 2 1 = (g.outcome.map outcomeCode).getD 255 ∧ leNat bytes 3 1 = g.pass % 256 ∧
      leNat bytes 4 2 = g.budget % 65536 ∧ leNat bytes 6 2 = g.cells % 65536 ∧ leNat bytes 8 1 = g.meanQ % 256 ∧
      leNat bytes 9 1 = g.debt % 256 ∧ leNat bytes 10 2 = g.flags.toNat ∧
      leNat bytes 12 4 = g.delivered % 4294967296 := by
  have program : g.program.val % 256 = g.program.val := Nat.mod_eq_of_lt (by omega)
  have state := Nat.mod_eq_of_lt (programStateCode_lt g.state)
  have outcome := Nat.mod_eq_of_lt (lastOutcomeCode_lt g.outcome)
  rw [lastOutcomeCode_eq] at outcome
  have flags : g.flags.toNat % 65536 = g.flags.toNat := half_mod g.flags
  simp only [sectionBytes_eq, Nat.reduceLeDiff, Nat.reduceSub, Nat.le_refl, leNat_behind_field, leNat_field, Nat.reducePow,
    program, state, outcome, flags, lastOutcomeCode_eq, and_self]

/-- R180: a report is its header and its sections behind each other. -/
theorem reportBytes_eq (f : Figures) (skipped : Nat) : reportBytes f skipped = exactly 576
    (leBytes 4 f.interval.toNat ++ (leBytes 4 (min f.nulls 4294967295) ++ (leBytes 2 f.pool ++ (leBytes 2 f.reserve ++
      (leBytes 2 f.spare ++ (leBytes 2 f.shortfall ++ (leBytes 2 f.correctable ++ (leBytes 2 f.freePages ++
      (leBytes 2 skipped ++ (leBytes 1 f.sections.length ++ (f.flags :: (zeros 8 ++
      f.sections.flatMap sectionBytes)))))))))))) := by
  simp only [reportBytes, List.append_assoc, List.cons_append, List.nil_append]

theorem reportBytes_header {f : Figures} (count : f.sections.length ≤ 16) (skipped : Nat) :
    let bytes := reportBytes f skipped
    leNat bytes 0 4 = f.interval.toNat ∧ leNat bytes 4 4 = Nat.min f.nulls 4294967295 ∧
      leNat bytes 8 2 = f.pool % 65536 ∧ leNat bytes 10 2 = f.reserve % 65536 ∧ leNat bytes 12 2 = f.spare % 65536 ∧
      leNat bytes 14 2 = f.shortfall % 65536 ∧ leNat bytes 16 2 = f.correctable % 65536 ∧
      leNat bytes 18 2 = f.freePages % 65536 ∧ leNat bytes 20 2 = skipped % 65536 ∧
      leNat bytes 22 1 = f.sections.length ∧ byteAt bytes 23 = f.flags := by
  have interval : f.interval.toNat % 4294967296 = f.interval.toNat := word_mod f.interval
  have nulls : min f.nulls 4294967295 % 4294967296 = min f.nulls 4294967295 := Nat.mod_eq_of_lt (by omega)
  have sections : f.sections.length % 256 = f.sections.length := Nat.mod_eq_of_lt (by omega)
  simp only [reportBytes_eq]
  refine ⟨?_, ?_, ?_, ?_, ?_, ?_, ?_, ?_, ?_, ?_, ?_⟩
  case refine_11 =>
    rw [byteAt_exactly (by decide)]
    simp only [byteAt_behind_field, Nat.reduceLeDiff, Nat.reduceSub]
    rfl
  all_goals
    rw [leNat_exactly (by decide)]
    simp only [Nat.reduceLeDiff, Nat.reduceSub, Nat.le_refl, leNat_behind_field, leNat_field, Nat.reducePow, interval, nulls,
      sections]

/-- R181: what stands at an offset of a report's sections. -/
theorem leNat_reportBytes {f : Figures} {skipped off n : Nat} (fits : 32 + off + n ≤ 576) :
    leNat (reportBytes f skipped) (32 + off) n = leNat (f.sections.flatMap sectionBytes) off n := by
  rw [reportBytes_eq, leNat_exactly fits, leNat_behind_field (by omega), leNat_behind_field (by omega),
    leNat_behind_field (by omega), leNat_behind_field (by omega), leNat_behind_field (by omega), leNat_behind_field (by omega),
    leNat_behind_field (by omega), leNat_behind_field (by omega), leNat_behind_field (by omega), leNat_behind_field (by omega),
    leNat_behind_byte (by omega), leNat_behind_zeros (by omega)]
  congr 1
  omega

theorem reportBytes_section {f : Figures} (count : f.sections.length ≤ 16) (skipped : Nat) {i off n : Nat} {g : SectionFigures}
    (h : f.sections[i]? = some g) (fits : off + n ≤ 32) :
    leNat (reportBytes f skipped) (32 + 32 * i + off) n = leNat (sectionBytes g) off n := by
  have inside := (List.getElem?_eq_some_iff.1 h).1
  rw [Nat.add_assoc, leNat_reportBytes (by omega), leNat_sections h fits]

theorem reportBytes_tail (f : Figures) (skipped : Nat) {i : Nat} (behind : 32 + 32 * f.sections.length ≤ i) :
    byteAt (reportBytes f skipped) i = 0 := by
  by_cases inside : i < 576
  · rw [reportBytes_eq, byteAt_exactly inside]
    refine byteAt_of_length_le ?_
    simp only [List.length_append, leBytes_length, List.length_cons, zeros, List.length_replicate, sections_length]
    omega
  · exact byteAt_of_length_le (by rw [reportBytes, exactly_length]; omega)

/-! ### The accesses of a report -/

section
variable {s : State}

theorem State.startReport_waits {w : ReportWork} (busy : s.reporter.work = some w) : s.startReport = s := by
  rw [State.startReport, busy]

theorem State.startReport_nil (waiting : s.reporter.waiting = []) : s.startReport = s := by
  unfold State.startReport
  cases work : s.reporter.work with
  | none => rw [waiting]
  | some w => rfl

theorem State.startReport_cons {f : Figures} {rest : List Figures} (free : s.reporter.work = none)
    (waiting : s.reporter.waiting = f :: rest) : s.startReport = { s with
      reporter := { s.reporter with work := some { figures := f, phase := .consumed }, waiting := rest }
      link := { s.link with
        accesses := s.link.accesses ++
          [{ tag := s.link.nextTag, agent := .report, kind := .read, addr := s.settingsD.directory + 0x3C, length := 4
             key := none, region := 0xFF, data := [] }]
        nextTag := s.link.nextTag + 1 } } := by
  unfold State.startReport
  rw [free, waiting]
  exact State.issue_readRequest _ _ _ _

theorem State.endReport_follows {f : Figures} (goesOn : f.endsDrain = false) : s.ReportFollows (s.endReport f) := by
  have next : s.endReport f = State.startReport { s with reporter := { s.reporter with work := none } } :=
    if_neg (by simp [goesOn])
  rw [next]
  exact ⟨State.startReport_nil (s := { s with reporter := { s.reporter with work := none } }),
    fun f rest => State.startReport_cons (s := { s with reporter := { s.reporter with work := none } }) rfl⟩

/-- R176: the device has come to IDLE from the drain in s. -/
structure State.DrainEnded (s t : State) : Prop where
  idle : t.control.device = .idle
  timer : t.timer = { s.timer with running := false }
  line : t.line.active = false
  intake : t.controller.intake = none
  pages : t.line.sendingPages = [] ∧ t.line.buildingPages = [] ∧ t.line.holdingPages = []
  reporter : t.reporter = { s.reporter with waiting := [] }

theorem State.enterIdle_ended (draining : s.control.device = .draining) : s.DrainEnded s.enterIdle := by
  rw [State.enterIdle, if_pos draining, State.haltRecoder_eq, State.endReservation_eq]
  exact ⟨rfl, rfl, rfl, rfl, ⟨rfl, rfl, rfl⟩, rfl⟩

theorem State.endReport_ended {f : Figures} (draining : s.control.device = .draining) (ends : f.endsDrain = true) :
    State.DrainEnded { s with reporter := { s.reporter with work := none } } (s.endReport f) := by
  have next : s.endReport f = State.enterIdle { s with reporter := { s.reporter with work := none } } := if_pos ends
  rw [next]
  exact State.enterIdle_ended draining

/-- R170: reporting has stopped, its failure raised. -/
def State.reportingStopped (s : State) : State :=
  { s with
    control := s.control.drive (s.control.events ||| 4) s.control.enable
    reporter := { s.reporter with isOn := false, work := none, waiting := [] } }

theorem State.stopReporting_running {f : Figures} (goesOn : f.endsDrain = false)
    (others : ∀ f ∈ s.reporter.waiting, f.endsDrain = false) : s.stopReporting f = s.reportingStopped := by
  have none : (f.endsDrain || s.reporter.waiting.any Figures.endsDrain) = false := by
    rw [goesOn, Bool.false_or, List.any_eq_false]
    exact fun g mem => by simp [others g mem]
  exact if_neg (by rw [none]; decide)

theorem State.stopReporting_ended {f : Figures} (draining : s.control.device = .draining) (ends : f.endsDrain = true) :
    s.reportingStopped.DrainEnded (s.stopReporting f) := by
  have next : s.stopReporting f = s.reportingStopped.enterIdle := if_pos (by rw [ends]; rfl)
  rw [next]
  exact State.enterIdle_ended draining

theorem tableFull_iff (slots w c : Nat) : tableFull slots w c = true ↔ (w + 1) % slots = c ∨ slots ≤ c := by
  simp only [tableFull, decide_eq_true_eq]

/-- R180: a full table counts a skip. -/
def State.reportSkipped (s : State) : State :=
  { s with
    control := s.control.drive (s.control.events ||| 4) s.control.enable
    reporter := { s.reporter with skipped := Nat.min (s.reporter.skipped + 1) 65535 } }

theorem State.reportIndexRead_full {c : Nat} (full : tableFull s.settingsD.reportSlots s.reporter.writeIndex c = true)
    (f : Figures) : s.reportIndexRead f c = s.reportSkipped.endReport f := by
  rw [State.reportIndexRead, if_pos full]
  rfl

/-- R180: the write of a report's record. -/
def State.recordWrite (s : State) (f : Figures) : Request :=
  writeRequest .report (some 0) (s.settingsD.reportBase + BitVec.ofNat 64 (576 * s.reporter.writeIndex))
    (reportBytes f s.reporter.skipped)

theorem State.recordWrite_eq (s : State) (f : Figures) : s.recordWrite f =
    { agent := .report, kind := .write, addr := s.settingsD.reportBase + BitVec.ofNat 64 (576 * s.reporter.writeIndex)
      length := 576, key := some 0, data := reportBytes f s.reporter.skipped } := by
  rw [State.recordWrite, writeRequest, reportBytes, exactly_length]

theorem State.reportIndexRead_of_ok {c : Nat} (room : ¬ tableFull s.settingsD.reportSlots s.reporter.writeIndex c = true)
    {f : Figures} {region : Byte} (passes : checkAccess s.link.regions (s.recordWrite f) = .ok region) :
    s.reportIndexRead f c = { s with
      reporter := { s.reporter with work := some { figures := f, phase := .record } }
      link := { s.link with
        accesses := s.link.accesses ++ [(s.recordWrite f).access s.link.nextTag region]
        nextTag := s.link.nextTag + 1 } } := by
  rw [State.reportIndexRead, if_neg room, State.issue_of_ok]
  · rfl
  · exact passes

theorem State.reportIndexRead_of_error {c : Nat} (room : ¬ tableFull s.settingsD.reportSlots s.reporter.writeIndex c = true)
    {f : Figures} {e : AccessResult × Byte} (refused : checkAccess s.link.regions (s.recordWrite f) = .error e) :
    s.reportIndexRead f c =
      (s.setReporter { s.reporter with work := some { figures := f, phase := .record } }).stopReporting f := by
  rw [State.reportIndexRead, if_neg room, State.issue_of_error]
  · exact refused

/-- R180: the record is written and the write of the new index in flight. -/
theorem State.reportRecordWritten_eq (f : Figures) : s.reportRecordWritten f = { s with
    reporter := { s.reporter with skipped := 0, work := some { figures := f, phase := .index } }
    link := { s.link with
      accesses := s.link.accesses ++
        [{ tag := s.link.nextTag, agent := .report, kind := .write, addr := s.settingsD.directory + 0x38, length := 4
           key := none, region := 0xFF, data := leBytes 4 ((s.reporter.writeIndex + 1) % s.settingsD.reportSlots) }]
      nextTag := s.link.nextTag + 1 } } := by
  rw [State.reportRecordWritten, State.issue_unchecked _ _ rfl]
  rfl

/-- R180: the index is written: it becomes the device's own. -/
def State.indexWritten (s : State) : State :=
  { s with
    control := s.control.drive (s.control.events ||| 2) s.control.enable
    reporter := { s.reporter with writeIndex := (s.reporter.writeIndex + 1) % s.settingsD.reportSlots } }

variable {w : ReportWork}

theorem State.reportReply_failed (work : s.reporter.work = some w) (f : Failure) :
    s.reportReply (.failed f) = s.stopReporting w.figures := by
  unfold State.reportReply
  rw [work]

theorem State.reportReply_consumed (work : s.reporter.work = some w) (phase : w.phase = .consumed) (data : List Byte) :
    s.reportReply (.done data) = s.reportIndexRead w.figures (leNat data 0 4) := by
  unfold State.reportReply
  rw [work]
  dsimp only
  rw [phase]

theorem State.reportReply_record (work : s.reporter.work = some w) (phase : w.phase = .record) (data : List Byte) :
    s.reportReply (.done data) = s.reportRecordWritten w.figures := by
  unfold State.reportReply
  rw [work]
  dsimp only
  rw [phase]

theorem State.reportReply_index (work : s.reporter.work = some w) (phase : w.phase = .index) (data : List Byte) :
    s.reportReply (.done data) = s.indexWritten.endReport w.figures := by
  unfold State.reportReply
  rw [work]
  dsimp only
  rw [phase]
  rfl

/-! ### STOP -/

theorem State.allOff_iff (s : State) : s.allOff = true ↔ ∀ p, (s.ctx p).state = .off := by
  simp only [State.allOff, List.all_eq_true, decide_eq_true_eq]
  exact ⟨fun off p => off p (mem_programs p), fun off p _ => off p⟩

/-- R176: in DRAINING the notice is given at once where every program is OFF. -/
theorem State.noticeIfAllOff_of_draining (draining : s.control.device = .draining) :
    s.noticeIfAllOff = s.setControl { s.control with
      notice := s.control.notice || decide (∀ p, (s.ctx p).state = .off) } := by
  unfold State.noticeIfAllOff
  by_cases off : ∀ p, (s.ctx p).state = .off
  · rw [if_pos ⟨draining, s.allOff_iff.2 off⟩, decide_eq_true off, Bool.or_true]
  · rw [if_neg fun both => off (s.allOff_iff.1 both.2), decide_eq_false off, Bool.or_false]
    rfl

theorem exec_stop_running (free : s.control.inFlight = none) (running : s.control.device = .running) :
    exec .stop s = .next { s with control := { s.control with
      ignored := false, device := .draining, notice := decide (∀ p, (s.ctx p).state = .off), last := some .stop, result := .ok
      events := s.control.events ||| 1, line := ((s.control.events ||| 1) &&& s.control.enable) != 0 } } := by
  refine congrArg Host.Outcome.next ?_
  have result : ∀ u : State, u.control.device = .draining → u.control.notice = false → u.noticeIfAllOff.complete (some .stop) .ok =
      { u with control := { u.control with
        inFlight := none, notice := decide (∀ p, (u.ctx p).state = .off), last := some .stop, result := .ok
        events := u.control.events ||| 1, line := ((u.control.events ||| 1) &&& u.control.enable) != 0 } } := by
    intro u draining notice
    rw [State.noticeIfAllOff_of_draining draining, notice, Bool.false_or]
    rfl
  rw [State.command_accepted free (by rw [running]; rfl), State.stopRun, result _ rfl rfl, ← free]
  rfl

/-! ### The boundary that ends a drain -/

theorem State.nextInterval_values (s : State) (lineFirst : Bool) :
    (s.nextInterval lineFirst).control = s.line.shortfallRaised s.control ∧
      (s.nextInterval lineFirst).timer = { s.timer with number := s.timer.number + 1 } ∧
      (s.nextInterval lineFirst).reporter = s.reporter ∧ (s.nextInterval lineFirst).line = s.line.swap ∧
      (s.nextInterval lineFirst).controller.intake = s.controller.intake := by
  simp only [State.nextInterval, State.intervalClosed_eq, State.listsClosed, and_self]

theorem Line.shortfallRaised_values (l : Line) (c : Control) :
    (l.shortfallRaised c).device = c.device ∧ (l.shortfallRaised c).notice = c.notice ∧
      (l.shortfallRaised c).drainEnding = c.drainEnding := by
  unfold Line.shortfallRaised
  split
  · exact ⟨rfl, rfl, rfl⟩
  · exact ⟨rfl, rfl, rfl⟩

/-- R156: the lists exchanged, the line is empty where building list and deferred holding were. -/
theorem Line.swap_isEmpty (l : Line) :
    l.swap.isEmpty = true ↔ ∀ p, (l.building.look p).sequence = [] ∧ l.holding.look p = [] := by
  have empty : ∀ p, ((l.swap.sending.look p).entries.isEmpty && (l.swap.building.look p).deferred.isEmpty) = true ↔
      (l.building.look p).sequence = [] ∧ l.holding.look p = [] := fun p => by
    simp only [Line.swap, PerProgram.look_tabulate, Bool.and_eq_true, List.isEmpty_iff]
  rw [Line.isEmpty, List.all_eq_true]
  exact ⟨fun all p => (empty p).1 (all p (mem_programs p)), fun all p _ => (empty p).2 (all p)⟩

/-- R176: whether a boundary ends the drain. -/
theorem State.closedFigures_endsDrain (s : State) (lineFirst : Bool) : (s.closedFigures lineFirst).endsDrain = true ↔
    s.control.device = .draining ∧ s.control.notice = true ∧ s.control.drainEnding = false ∧
      (∀ p, (s.line.building.look p).sequence = [] ∧ s.line.holding.look p = []) ∧ s.reporter.faultQueue = [] := by
  obtain ⟨device, notice, ending⟩ := s.line.shortfallRaised_values s.control
  have ends : (s.closedFigures lineFirst).endsDrain = (s.listsClosed lineFirst).drainEnds := by
    rw [State.closedFigures, State.closedLists_eq]
    dsimp only [State.gatherFigures]
  rw [ends, ← Line.swap_isEmpty]
  simp only [State.drainEnds, State.listsClosed, device, notice, ending, Bool.and_eq_true, decide_eq_true_eq, Bool.not_eq_true',
    List.isEmpty_iff, and_assoc]

theorem State.reportBoundary_off {f : Figures} (off : s.reporter.isOn = false) (ends : f.endsDrain = true) :
    s.reportBoundary f = s.enterIdle := by
  rw [State.reportBoundary, if_neg (by simp [off]), if_pos ends]

theorem State.reportBoundary_on (isOn : s.reporter.isOn = true) (f : Figures) :
    s.reportBoundary f = State.startReport { s with
      control := { s.control with drainEnding := s.control.drainEnding || f.endsDrain }
      reporter := { s.reporter with waiting := s.reporter.waiting ++ [f] } } := if_pos isOn

theorem State.startReport_timer (s : State) : s.startReport.timer = s.timer := by
  cases work : s.reporter.work with
  | some w => rw [State.startReport_waits work]
  | none =>
    cases waiting : s.reporter.waiting with
    | nil => rw [State.startReport_nil waiting]
    | cons f rest => rw [State.startReport_cons work waiting]

theorem State.reportBoundary_on_values (isOn : s.reporter.isOn = true) (f : Figures) :
    (s.reportBoundary f).control = { s.control with drainEnding := s.control.drainEnding || f.endsDrain } ∧
      (s.reportBoundary f).timer = s.timer := by
  rw [State.reportBoundary_on isOn, State.startReport_control, State.startReport_timer]
  exact ⟨rfl, rfl⟩

theorem State.intakeAtBoundary_idle (idle : s.control.device = .idle) : s.intakeAtBoundary = s :=
  if_pos (by simp [idle])

theorem State.intakeAtBoundary_ending (ending : s.control.drainEnding = true) : s.intakeAtBoundary = s :=
  if_pos (by simp [ending])

theorem State.boundary_drained (lineFirst : Bool) (draining : s.control.device = .draining)
    (ends : (s.closedFigures lineFirst).endsDrain = true) (off : s.reporter.isOn = false) :
    (s.nextInterval lineFirst).DrainEnded (s.boundary lineFirst) := by
  obtain ⟨control, -, reporter, -, -⟩ := s.nextInterval_values lineFirst
  have ended : (s.nextInterval lineFirst).DrainEnded (s.nextInterval lineFirst).enterIdle :=
    State.enterIdle_ended (by rw [control, (s.line.shortfallRaised_values s.control).1, draining])
  rw [State.boundary_nextInterval, State.reportBoundary_off (by rw [reporter, off]) ends,
    State.intakeAtBoundary_idle ended.idle]
  exact ended

theorem State.boundary_drainReported (lineFirst : Bool) (draining : s.control.device = .draining)
    (ends : (s.closedFigures lineFirst).endsDrain = true) (isOn : s.reporter.isOn = true) :
    (s.boundary lineFirst).control.device = .draining ∧ (s.boundary lineFirst).control.drainEnding = true ∧
      (s.boundary lineFirst).timer = { s.timer with number := s.timer.number + 1 } := by
  obtain ⟨control, timer, reporter, -, -⟩ := s.nextInterval_values lineFirst
  obtain ⟨device, -, -⟩ := s.line.shortfallRaised_values s.control
  obtain ⟨controlled, timed⟩ := State.reportBoundary_on_values (reporter ▸ isOn) (s.closedFigures lineFirst)
  rw [ends, Bool.or_true] at controlled
  rw [State.boundary_nextInterval, State.intakeAtBoundary_ending (by rw [controlled]), controlled, timed, control]
  dsimp only
  exact ⟨by rw [device, draining], rfl, timer⟩

end

/-- Settles O60. -/
theorem stopDrainsTheDevice : Obligations.StopDrainsTheDevice := by
  unfold Obligations.StopDrainsTheDevice
  refine ⟨fun s => exec_stop_running, fun s lineFirst running draining notice ending queue empty => ?_
    , fun s pre post a data w inFlight before behind agent work => ?_, fun f skipped count => ?_
    , fun s w work phase ends draining => ?_⟩
  case refine_1 =>
    have ends := (s.closedFigures_endsDrain lineFirst).2 ⟨draining, notice, ending, empty, queue⟩
    obtain ⟨-, timer, -, -, -⟩ := s.nextInterval_values lineFirst
    refine ⟨fun off => ⟨_, exec_boundary_running running lineFirst, ?_⟩, fun isOn =>
      ⟨_, exec_boundary_running running lineFirst, State.boundary_drainReported lineFirst draining ends isOn⟩⟩
    obtain ⟨idle, time, line, intake, pages, -⟩ := State.boundary_drained lineFirst draining ends off
    exact ⟨idle, line, time.trans (by rw [timer]), intake, pages⟩
  case refine_2 =>
    intro rest raised next full skipped written stopped ends
    have unchecked : ∀ c, tableFull rest.settingsD.reportSlots rest.reporter.writeIndex c = true ↔
        (next = c ∨ s.settingsD.reportSlots ≤ c) := fun c => tableFull_iff _ _ c
    refine ⟨fun kind phase length => ?_, fun kind phase => ?_, fun kind phase goesOn => ?_, fun c isEnd => ?_⟩
    case refine_1 =>
      have reads : exec (.accessCompletion a.tag data) s = .next (rest.reportIndexRead w.figures (leNat data 0 4)) := by
        rw [exec_accessCompletion_read inFlight before behind kind, agent, exactly_of_length length]
        exact congrArg Host.Outcome.next (State.reportReply_consumed (s := rest) work phase data)
      refine ⟨fun isFull => ?_, fun room => ?_⟩
      · have skips := State.reportIndexRead_full ((unchecked _).2 isFull) w.figures
        refine ⟨fun goesOn => ⟨_, reads, ?_⟩, fun ending draining => ⟨_, reads, ?_⟩⟩
        · rw [skips]
          exact State.endReport_follows goesOn
        · rw [skips]
          obtain ⟨idle, timer, line, intake, -, reporter⟩ := State.endReport_ended (s := rest.reportSkipped) draining ending
          exact ⟨idle, timer, line, intake, (congrArg Reporter.work reporter :)⟩
      · have notFull := mt (unchecked (leNat data 0 4)).1 room
        intro record
        have request : rest.recordWrite w.figures = record := rest.recordWrite_eq w.figures
        refine ⟨fun region passes => ?_, fun e refused goesOn others => ?_⟩
        · rw [reads, State.reportIndexRead_of_ok notFull (request ▸ passes), request]
          rfl
        · rw [reads, State.reportIndexRead_of_error notFull (request ▸ refused)]
          refine congrArg Host.Outcome.next ((State.stopReporting_running goesOn ?_).trans rfl)
          exact others
    case refine_2 =>
      rw [exec_accessCompletion_write inFlight before behind kind, agent]
      refine congrArg Host.Outcome.next ?_
      exact (State.reportReply_record (s := rest) work phase []).trans (State.reportRecordWritten_eq _)
    case refine_3 =>
      refine ⟨_, exec_accessCompletion_write inFlight before behind kind data, ?_⟩
      rw [agent]
      show written.ReportFollows (rest.reportReply (.done []))
      rw [State.reportReply_index (s := rest) work phase []]
      exact State.endReport_follows goesOn
    case refine_4 =>
      have fails : exec c s = .next (rest.stopReporting w.figures) := by
        rw [exec_busEnd inFlight before behind isEnd, agent]
        exact congrArg Host.Outcome.next (State.reportReply_failed (s := rest) work a.busFailure)
      refine ⟨fun goesOn others => ?_, fun ending draining => ⟨_, fails, ?_⟩⟩
      · rw [fails]
        exact congrArg Host.Outcome.next ((State.stopReporting_running (s := rest) goesOn others).trans rfl)
      · obtain ⟨idle, timer, line, intake, -, reporter⟩ := State.stopReporting_ended (s := rest) draining ending
        exact ⟨⟨idle, timer, line, intake, (congrArg Reporter.work reporter :)⟩, (congrArg Reporter.isOn reporter :)
          , (congrArg Reporter.writeIndex reporter :)⟩
  case refine_3 =>
    intro bytes
    obtain ⟨interval, nulls, pool, reserve, spare, shortfall, correctable, free, skips, sections, flags⟩ :=
      reportBytes_header count skipped
    refine ⟨exactly_length _ _, interval, nulls, pool, reserve, spare, shortfall, correctable, free, skips, sections, flags
      , fun i g h => ?_, fun i => reportBytes_tail f skipped⟩
    have field := fun off n (fits : off + n ≤ 32) => reportBytes_section (off := off) (n := n) count skipped h fits
    intro place
    have first := field 0 1 (by decide)
    rw [Nat.add_zero] at first
    rw [show leNat bytes place 1 = _ from first, show leNat bytes (place + 1) 1 = _ from field 1 1 (by decide),
      show leNat bytes (place + 2) 1 = _ from field 2 1 (by decide), show leNat bytes (place + 3) 1 = _ from field 3 1 (by decide),
      show leNat bytes (place + 4) 2 = _ from field 4 2 (by decide), show leNat bytes (place + 6) 2 = _ from field 6 2 (by decide),
      show leNat bytes (place + 8) 1 = _ from field 8 1 (by decide), show leNat bytes (place + 9) 1 = _ from field 9 1 (by decide),
      show leNat bytes (place + 10) 2 = _ from field 10 2 (by decide),
      show leNat bytes (place + 12) 4 = _ from field 12 4 (by decide)]
    exact sectionBytes_fields g
  case refine_4 =>
    rw [State.reportReply_index work phase]
    obtain ⟨idle, timer, line, -, -, reporter⟩ := State.endReport_ended (s := s.indexWritten) draining ends
    exact ⟨idle, (congrArg Timer.running timer :), line, (congrArg Reporter.writeIndex reporter :)⟩

end Sys2Proof.Machine

/-! PROOFS. An intake whose accesses are all refused at once starts no program and takes no picture (01, 1.1). -/

namespace Sys2Proof.Machine

/-- The phases that an intake reaches by refusals alone. -/
def IntakePhase.refusable : IntakePhase → Bool
  | .live | .fixed | .waitFinish | .stateRead | .abandonOutcome _ | .abandonState _ | .allDone => true
  | _ => false

/-- From r on the intake of an interval has had nothing but refusals. -/
structure RefusedIntake (r : State) (n : Word) (t : State) : Prop where
  control : t.control = { r.control with notice := t.control.notice }
  allocator : t.allocator = r.allocator
  counters : t.recoder.counters = r.recoder.counters
  side : t.side.counters = r.side.counters
  intake : ∃ i, t.controller.intake = some i ∧ i.interval = n ∧ i.halted = false ∧ i.phase.refusable = true

/-- The same of a step, which ended no access but a refused one. -/
def RefusedCont (r : State) (n : Word) (c : Cont) : Prop :=
  RefusedIntake r n c.1 ∧ ∀ reply, c.2 = some reply → ∃ f, reply = .failed f

section

variable {r s t : State} {n : Word} {p : Program}

/-- What leaves the intake, and what a refused intake does not touch, alone. -/
theorem RefusedIntake.mono (h : RefusedIntake r n s) (control : t.control = { s.control with notice := t.control.notice })
    (allocator : t.allocator = s.allocator) (counters : t.recoder.counters = s.recoder.counters)
    (side : t.side.counters = s.side.counters) (intake : t.controller.intake = s.controller.intake) : RefusedIntake r n t where
  control := by
    rw [h.control] at control
    exact control
  allocator := allocator.trans h.allocator
  counters := counters.trans h.counters
  side := side.trans h.side
  intake := intake ▸ h.intake

theorem RefusedIntake.modCtx (h : RefusedIntake r n s) (p : Program) (f : ProgramCtx → ProgramCtx) :
    RefusedIntake r n (s.modCtx p f) := h.mono rfl rfl rfl rfl rfl

theorem RefusedIntake.setKeys (h : RefusedIntake r n s) (k : Keys) : RefusedIntake r n (s.setKeys k) :=
  h.mono rfl rfl rfl rfl rfl

theorem RefusedIntake.intakeNote (h : RefusedIntake r n s) (p : Program) (f : Notes → Notes) :
    RefusedIntake r n (s.intakeNote p f) := h.mono rfl rfl rfl rfl rfl

theorem RefusedIntake.noticeIfAllOff (h : RefusedIntake r n s) : RefusedIntake r n s.noticeIfAllOff := by
  unfold State.noticeIfAllOff
  split
  · exact h.mono rfl rfl rfl rfl rfl
  · exact h

theorem RefusedIntake.programOff (h : RefusedIntake r n s) (p : Program) : RefusedIntake r n (s.programOff p) :=
  ((h.modCtx p _).setKeys _).noticeIfAllOff

theorem RefusedIntake.setLink (h : RefusedIntake r n s) (l : Link) : RefusedIntake r n (s.setLink l) :=
  h.mono rfl rfl rfl rfl rfl

theorem RefusedIntake.issue (h : RefusedIntake r n s) (x : Request) : RefusedCont r n (s.issue x) := by
  obtain ⟨l, issued⟩ := s.issue_setLink x
  refine ⟨?_, s.issue_reply x⟩
  rw [issued]
  exact h.setLink l

theorem RefusedIntake.requestFaultRecord (h : RefusedIntake r n s) (q : FaultRequest) :
    RefusedIntake r n (s.requestFaultRecord q) := by
  unfold State.requestFaultRecord
  split
  · obtain ⟨l, w, started, -⟩ := (s.setReporter { s.reporter with faultQueue := [q] }).startFaultWrite_cases
    rw [started]
    exact h.mono rfl rfl rfl rfl rfl
  · split
    · exact h.mono rfl rfl rfl rfl rfl
    · exact h.mono rfl rfl rfl rfl rfl

theorem RefusedIntake.hold (h : RefusedIntake r n s) (p : Program) (info : FaultInfo) :
    RefusedIntake r n (s.hold p true info) := by
  have noted := h.intakeNote p fun n => { n with heldFault := true }
  unfold State.hold
  simp only [if_true]
  split
  · exact h
  · exact noted
  · exact (noted.modCtx p _).requestFaultRecord _

theorem RefusedIntake.handCue (h : RefusedIntake r n s) (p : Program) : RefusedIntake r n (s.handCue p) := by
  unfold State.handCue
  split
  · exact h
  · exact h.mono rfl rfl rfl rfl rfl

theorem RefusedIntake.handPair (h : RefusedIntake r n s) (p : Program) : RefusedIntake r n (s.handPair p) := by
  unfold State.handPair
  dsimp only
  split
  · exact h
  · split
    · exact h
    · split
      · exact (h.modCtx p _).setKeys _
      · exact h

/-! ### The steps of the intake -/

theorem RefusedIntake.withIntake (h : RefusedIntake r n s) {i : Intake} (interval : i.interval = n) (open_ : i.halted = false)
    (phase : i.phase.refusable = true) : RefusedIntake r n (s.setController { s.controller with intake := some i }) :=
  ⟨h.control, h.allocator, h.counters, h.side, i, rfl, interval, open_, phase⟩

theorem RefusedIntake.atPhase (h : RefusedIntake r n s) {phase : IntakePhase} (refusable : phase.refusable = true) :
    RefusedIntake r n (s.atPhase phase) := by
  obtain ⟨i, intake, interval, open_, -⟩ := h.intake
  rw [State.atPhase_of_intake intake]
  exact h.withIntake interval open_ refusable

theorem RefusedIntake.stay (h : RefusedIntake r n s) : RefusedCont r n (s, none) := ⟨h, fun _ e => nomatch e⟩

theorem RefusedIntake.beginProgram (h : RefusedIntake r n s) (p : Program) : RefusedCont r n (s.beginProgram p) := by
  obtain ⟨i, intake, interval, open_, -⟩ := h.intake
  rw [State.beginProgram]
  simp only [intake, Option.map_some]
  exact RefusedIntake.issue (h.withIntake (i := { i with program := p, takes := 0, phase := .live }) interval open_ rfl) _

theorem RefusedIntake.nextProgram (h : RefusedIntake r n s) : RefusedCont r n s.nextProgram := by
  obtain ⟨i, intake, interval, open_, -⟩ := h.intake
  simp only [State.nextProgram, intake]
  rw [if_neg (by simp [open_])]
  split
  · exact (h.atPhase rfl).stay
  · exact h.beginProgram _

theorem RefusedIntake.tryTake (h : RefusedIntake r n s) (p : Program) : RefusedCont r n (s.tryTake p) := by
  obtain ⟨i, intake, interval, open_, -⟩ := h.intake
  simp only [State.tryTake, intake]
  rw [if_neg (by simp [open_])]
  split
  · exact (h.atPhase rfl).issue _
  · exact h.nextProgram

theorem RefusedIntake.afterMode (h : RefusedIntake r n s) (p : Program) : RefusedCont r n (s.afterMode p) :=
  (h.handPair p).tryTake p

theorem RefusedIntake.abandonFrom (p : Program) : ∀ (fuel i : Nat) {s : State}, RefusedIntake r n s →
    RefusedIntake r n (s.abandonFrom .intake (State.intakeAbandonNote p) p fuel i).1
  | 0, _, _, h => h
  | fuel + 1, i, s, h => by
    unfold State.abandonFrom
    dsimp only
    split
    · exact h
    · split
      · exact RefusedIntake.abandonFrom p fuel (i + 1) h
      · have issued := (h.issue (s.abandonWrite .intake p i)).1
        rw [State.issueRecord_abandon]
        split
        next e =>
          rw [e] at issued
          exact issued
        next e =>
          rw [e] at issued
          exact RefusedIntake.abandonFrom p fuel (i + 1) (issued.intakeNote p _)

theorem RefusedIntake.intakeAfter {x : State × AbandonWait} (h : RefusedIntake r n x.1) :
    RefusedCont r n (State.intakeAfter p x) := by
  match x, h with
  | (s, .outcome i), h => exact (RefusedIntake.atPhase h rfl).stay
  | (s, .state i), h => exact (RefusedIntake.atPhase h rfl).stay
  | (s, .finished), h => exact RefusedIntake.nextProgram ((RefusedIntake.modCtx h p _).programOff p)

theorem RefusedIntake.intakeAbandon (h : RefusedIntake r n s) (p : Program) : RefusedCont r n (s.intakeAbandon p) := by
  unfold State.intakeAbandon
  split
  · exact (h.atPhase rfl).stay
  · exact RefusedIntake.intakeAfter (h.abandonFrom p 4 0)

theorem RefusedIntake.drainProgram (h : RefusedIntake r n s) (p : Program) : RefusedCont r n (s.drainProgram p) := by
  unfold State.drainProgram
  split
  · exact (h.programOff p).afterMode p
  · exact (h.modCtx p _).afterMode p

theorem RefusedIntake.transition (h : RefusedIntake r n s) (p : Program) : RefusedCont r n (s.transition p) := by
  unfold State.transition
  split
  · exact (h.atPhase rfl).issue _
  · exact h.nextProgram
  · exact h.nextProgram
  · exact h.afterMode p
  · exact h.intakeAbandon p
  · exact h.intakeAbandon p
  · exact h.afterMode p
  · exact h.drainProgram p
  · exact h.intakeAbandon p
  · exact (h.modCtx p _).afterMode p
  · exact h.drainProgram p
  · exact h.intakeAbandon p
  · exact h.afterMode p
  · exact h.intakeAbandon p
  · exact h.intakeAbandon p

theorem RefusedIntake.fixedReply (h : RefusedIntake r n s) (p : Program) (f : Failure) :
    RefusedCont r n (s.fixedReply p (.failed f)) := by
  unfold State.fixedReply
  split
  · exact h.nextProgram
  · exact ((h.modCtx p _).intakeNote p _).nextProgram

/-- A refused access leads on to the next program, or to an access of the same kind. -/
theorem RefusedIntake.step (h : RefusedIntake r n s) (f : Failure) : RefusedCont r n (s.intakeStep (.failed f)) := by
  obtain ⟨i, intake, -, open_, phase⟩ := h.intake
  simp only [State.intakeStep, intake, open_, Bool.false_eq_true, if_false]
  split
  · exact ((h.intakeNote _ _).handCue _).transition _
  · exact h.fixedReply _ f
  · exact h.stay
  · exact RefusedIntake.intakeAfter ((h.intakeNote _ _).abandonFrom _ 4 _)
  · exact RefusedIntake.intakeAfter ((h.intakeNote _ _).abandonFrom _ 4 _)
  · exact (h.hold _ _).nextProgram
  case h_15 => exact h.stay
  all_goals
    rename_i at_
    rw [at_] at phase
    cases phase

theorem RefusedCont.run (fuel : Nat) : ∀ c : Cont, RefusedCont r n c → RefusedIntake r n (State.intakeRun fuel c) := by
  induction fuel with
  | zero => exact fun _ h => h.1
  | succ fuel ih =>
    intro c h
    match c, h with
    | (s, none), h => exact h.1
    | (s, some reply), h =>
      obtain ⟨f, rfl⟩ := h.2 reply rfl
      exact ih _ (h.1.step f)

/-- R1: an intake begins; until its first access ends nothing but refusals has happened. -/
theorem State.beginIntake_refused (s : State) : RefusedIntake s s.timer.number s.beginIntake := by
  unfold State.beginIntake
  refine RefusedCont.run _ _ (RefusedIntake.beginProgram ?_ 0)
  exact ⟨rfl, rfl, rfl, rfl, _, rfl, rfl, rfl, rfl⟩

/-- R1: where the read of program 0's live part is accepted, the intake waits for it. -/
theorem State.beginIntake_of_ok {region : Byte}
    (passes : checkAccess s.link.regions (readRequest .intake (some 0) s.settingsD.programTable 16) = .ok region) :
    s.beginIntake = { s with
      controller := { s.controller with
        intake := some { interval := s.timer.number, program := 0, takes := 0, halted := false, phase := .live }
        intakeNotes := PerProgram.fill Notes.clear }
      link := { s.link with
        accesses := s.link.accesses ++
          [{ tag := s.link.nextTag, agent := .intake, kind := .read, addr := s.settingsD.programTable, length := 16
             key := some 0, region := region, data := [] }]
        nextTag := s.link.nextTag + 1 } } := by
  have first : s.settingsD.programTable + BitVec.ofNat 64 (128 * (0 : Program).val) = s.settingsD.programTable :=
    BitVec.add_zero _
  rw [State.beginIntake, State.beginProgram, State.issue_of_ok (region := region)]
  · rw [← first]
    rfl
  · rw [← first] at passes
    exact passes

end

end Sys2Proof.Machine

/-! PROOFS. The allocator, the pages and the figures of an interval that closes (03, 3.3 and 3.4; 06, 6.2; 10, 10.6). -/

namespace Sys2Proof.Machine

/-! ### The delivered lists and the debts -/

/-- R59: several entries appended one after another are appended together. -/
theorem foldl_appendDelivered (delay : Nat) (delivered sizes : List Nat) :
    sizes.foldl (appendDelivered delay) delivered =
      if sizes = [] then delivered else (delivered ++ sizes).drop (delivered.length + sizes.length - delay) := by
  induction sizes using List.reverseRecOn with
  | nil => rfl
  | append_singleton sizes x ih =>
    have behind : sizes ++ [x] ≠ [] := by simp
    rw [List.foldl_append, List.foldl_cons, List.foldl_nil, ih, if_neg behind, appendDelivered_eq]
    by_cases none : sizes = []
    · rw [if_pos none, none]
      rfl
    · rw [if_neg none, ← List.append_assoc, List.length_drop, List.length_append, List.length_append, List.length_singleton]
      rw [← List.drop_append_of_le_length (by rw [List.length_append]; omega), List.drop_drop]
      by_cases over_ : delivered.length + sizes.length < delay
      · congr 1
        omega
      · congr 1
        omega

variable {delay : Program → Nat}

/-- R59, R60, R63: what completions taken in order do to the allocator. -/
structure Allocator.Takes (reports : List CompletionReport) (delay : Program → Nat) (a b : Allocator) : Prop where
  rest : b = { a with delivered := b.delivered, debt := b.debt, reported := b.reported }
  delivered : ∀ p, b.delivered.look p =
    ((reports.filter fun r => r.program = p).map CompletionReport.size).foldl (appendDelivered (delay p)) (a.delivered.look p)
  debt : ∀ p, b.debt.look p =
    (((reports.filter fun r => r.program = p).getLast?.map CompletionReport.debt).getD (a.debt.look p))
  reported : ∀ p, p ∈ b.reported ↔ p ∈ a.reported ∨ ∃ r ∈ reports, r.program = p

theorem Allocator.foldl_taken (reports : List CompletionReport) (a : Allocator) :
    Allocator.Takes reports delay a (reports.foldl (Allocator.taken delay) a) := by
  induction reports using List.reverseRecOn with
  | nil => exact ⟨rfl, fun _ => rfl, fun _ => rfl, fun p => by simp⟩
  | append_singleton reports r ih =>
    obtain ⟨rest, delivered, debt, reported⟩ := ih
    rw [List.foldl_append, List.foldl_cons, List.foldl_nil]
    generalize reports.foldl (Allocator.taken delay) a = b at *
    refine ⟨?_, fun p => ?_, fun p => ?_, fun p => ?_⟩
    · conv_lhs => rw [Allocator.taken, Allocator.appended, rest]
      rfl
    · rw [List.filter_append, List.map_append, List.foldl_append, ← delivered]
      show (b.delivered.modify r.program _).look p = _
      rw [PerProgram.look_modify]
      by_cases same : r.program = p
      · rw [if_pos same, List.filter_cons_of_pos (by simp [same]), same]
        rfl
      · rw [if_neg same, List.filter_cons_of_neg (by simpa using same)]
        rfl
    · rw [List.filter_append]
      show (b.debt.put r.program r.debt).look p = _
      rw [PerProgram.look_put]
      by_cases same : r.program = p
      · rw [if_pos same, List.filter_cons_of_pos (by simp [same]), List.filter_nil, List.getLast?_concat]
        rfl
      · rw [if_neg same, List.filter_cons_of_neg (by simpa using same), List.filter_nil, List.append_nil, debt]
    · show p ∈ r.program :: b.reported ↔ _
      rw [List.mem_cons, reported]
      simp only [List.mem_append, List.mem_singleton]
      constructor
      · rintro (rfl | old | ⟨x, mem, rfl⟩)
        · exact .inr ⟨r, .inr rfl, rfl⟩
        · exact .inl old
        · exact .inr ⟨x, .inl mem, rfl⟩
      · rintro (old | ⟨x, mem | rfl, rfl⟩)
        · exact .inr (.inl old)
        · exact .inr (.inr ⟨x, mem, rfl⟩)
        · exact .inl rfl

theorem Allocator.foldl_appended (size : Nat) (ps : List Program) (a : Allocator) :
    let b := ps.foldl (fun a p => a.appended delay p size) a
    b = { a with delivered := b.delivered } ∧
      ∀ p, b.delivered.look p =
        ((ps.filter fun q => q = p).map fun _ => size).foldl (appendDelivered (delay p)) (a.delivered.look p) := by
  induction ps using List.reverseRecOn with
  | nil => exact ⟨rfl, fun _ => rfl⟩
  | append_singleton ps q ih =>
    obtain ⟨rest, delivered⟩ := ih
    dsimp only
    rw [List.foldl_append, List.foldl_cons, List.foldl_nil]
    generalize ps.foldl (fun a p => a.appended delay p size) a = b at *
    refine ⟨?_, fun p => ?_⟩
    · conv_lhs => rw [Allocator.appended, rest]
      rfl
    · rw [List.filter_append, List.map_append, List.foldl_append, ← delivered]
      show (b.delivered.modify q _).look p = _
      rw [PerProgram.look_modify]
      by_cases same : q = p
      · rw [if_pos same, List.filter_cons_of_pos (by simp [same]), same]
        rfl
      · rw [if_neg same, List.filter_cons_of_neg (by simpa using same)]
        rfl

/-- R57, R61: the allocator once every completion sent is taken. -/
def Allocator.noneInFlight (delay : Program → Nat) (a : Allocator) : Allocator :=
  { a.sentTaken delay with inFlight := none }

theorem Allocator.sentTaken_takes (a : Allocator) :
    Allocator.Takes (a.reports.filter a.isCurrent) delay { a with reports := a.reports.filter fun r => !a.isCurrent r }
      (a.sentTaken delay) := Allocator.foldl_taken _ _

theorem Allocator.closed_eq (a : Allocator) : a.closed delay =
    if ((a.noneInFlight delay).unreportedAppended delay).current.isNone then
      { (a.noneInFlight delay).unreportedAppended delay with debt := PerProgram.fill 0 }
    else (a.noneInFlight delay).unreportedAppended delay := rfl

/-- R57, R61, R64: what the closing of an interval leaves of the allocator. -/
theorem Allocator.closed_fields (a : Allocator) :
    (a.closed delay).rotation = a.rotation ∧ (a.closed delay).current = a.current ∧ (a.closed delay).inFlight = none ∧
      (a.closed delay).reports = a.reports.filter fun r => !a.isCurrent r := by
  have taken := (a.sentTaken_takes (delay := delay)).rest
  have appended := (Allocator.foldl_appended (delay := delay) 8 (a.noneInFlight delay).unreported (a.noneInFlight delay)).1
  have fields : ((a.noneInFlight delay).unreportedAppended delay).rotation = a.rotation ∧
      ((a.noneInFlight delay).unreportedAppended delay).current = a.current ∧
      ((a.noneInFlight delay).unreportedAppended delay).inFlight = none ∧
      ((a.noneInFlight delay).unreportedAppended delay).reports = a.reports.filter fun r => !a.isCurrent r :=
    ⟨(congrArg Allocator.rotation appended :).trans (congrArg Allocator.rotation taken :)
      , (congrArg Allocator.current appended :).trans (congrArg Allocator.current taken :)
      , (congrArg Allocator.inFlight appended :)
      , (congrArg Allocator.reports appended :).trans (congrArg Allocator.reports taken :)⟩
  rw [Allocator.closed_eq]
  split
  · exact fields
  · exact fields

/-- R61: the programs of an interval that get an entry of 8 when it closes, each once. -/
theorem Allocator.filter_unreported {a : Allocator} {c : Allocation} (current : a.current = some c)
    (distinct : ((c.grants.map Grant.program) ++ (c.holds.map Hold.program)).Nodup) (p : Program) :
    (a.unreported.filter fun q => q = p) =
      if (p ∈ c.grants.map Grant.program ∧ p ∉ a.reported) ∨ p ∈ c.holds.map Hold.program then [p] else [] := by
  have unreported : a.unreported =
      ((c.grants.map Grant.program).filter fun p => !a.reported.contains p) ++ c.holds.map Hold.program := by
    simp only [Allocator.unreported, current]
  have once : a.unreported.Nodup := by
    rw [unreported]
    exact distinct.sublist (List.filter_sublist.append_right _)
  have mem : p ∈ a.unreported ↔
      (p ∈ c.grants.map Grant.program ∧ p ∉ a.reported) ∨ p ∈ c.holds.map Hold.program := by
    rw [unreported, List.mem_append, List.mem_filter]
    simp only [Bool.not_eq_true', List.contains_eq_mem, decide_eq_false_iff_not]
  rw [List.filter_eq, List.Nodup.count once]
  by_cases unheard : p ∈ a.unreported
  · rw [if_pos unheard, if_pos (mem.1 unheard)]
    rfl
  · rw [if_neg unheard, if_neg fun h => unheard (mem.2 h)]
    rfl

/-- R60 to R63: the debts and the delivered lists of an interval with an allocation that closes. -/
theorem Allocator.closed_some {a : Allocator} {c : Allocation} (current : a.current = some c)
    (distinct : ((c.grants.map Grant.program) ++ (c.holds.map Hold.program)).Nodup) (p : Program) :
    let sent := a.reports.filter fun r => a.isCurrent r ∧ r.program = p
    let held := (p ∈ c.grants.map Grant.program ∧ p ∉ a.reported ∧ sent = []) ∨ p ∈ c.holds.map Hold.program
    let sizes := sent.map CompletionReport.size ++ (if held then [8] else [])
    (a.closed delay).debt.look p = (sent.getLast?.map CompletionReport.debt).getD (a.debt.look p) ∧
      (a.closed delay).delivered.look p =
        if sizes = [] then a.delivered.look p
        else (a.delivered.look p ++ sizes).drop ((a.delivered.look p).length + sizes.length - delay p) := by
  intro sent held sizes
  obtain ⟨rest, delivered, debt, reported⟩ := a.sentTaken_takes (delay := delay)
  obtain ⟨appended, entries⟩ :=
    Allocator.foldl_appended (delay := delay) 8 (a.noneInFlight delay).unreported (a.noneInFlight delay)
  have still : (a.noneInFlight delay).current = some c := (congrArg Allocator.current rest :).trans current
  have closed : a.closed delay = (a.noneInFlight delay).unreportedAppended delay := by
    rw [Allocator.closed_eq, if_neg]
    rw [show ((a.noneInFlight delay).unreportedAppended delay).current = _ from (congrArg Allocator.current appended :), still]
    exact Bool.false_ne_true
  have both : ((a.reports.filter a.isCurrent).filter fun r => r.program = p) = sent := by
    rw [List.filter_filter]
    refine List.filter_congr fun r _ => ?_
    by_cases same : r.program = p
    · simp [same]
    · simp [same]
  have last : ((a.noneInFlight delay).unreported.filter fun q => q = p) = if held then [p] else [] := by
    rw [Allocator.filter_unreported still distinct]
    have silent : p ∉ (a.noneInFlight delay).reported ↔ p ∉ a.reported ∧ sent = [] := by
      rw [show (a.noneInFlight delay).reported = (a.sentTaken delay).reported from rfl, reported p, not_or, List.filter_eq_nil_iff]
      refine and_congr_right fun _ => ?_
      simp only [List.mem_filter, not_exists, not_and, decide_eq_true_eq, and_imp]
    exact if_congr (by rw [silent]) rfl rfl
  rw [closed]
  refine ⟨?_, ?_⟩
  · rw [show ((a.noneInFlight delay).unreportedAppended delay).debt = _ from (congrArg Allocator.debt appended :)]
    exact (debt p).trans (by rw [both])
  · refine (entries p).trans ?_
    rw [show (a.noneInFlight delay).delivered = (a.sentTaken delay).delivered from rfl, delivered p, both, last,
      ← List.foldl_append, foldl_appendDelivered]
    have eight : ((if held then [p] else []).map fun _ => 8) = if held then [8] else [] := by split <;> rfl
    rw [eight]

theorem Allocator.unreportedAppended_none {a : Allocator} (missed : a.current = none) : a.unreportedAppended delay = a := by
  have none : a.unreported = [] := by simp only [Allocator.unreported, missed]
  rw [Allocator.unreportedAppended, none, List.foldl_nil]

/-- R57, R62, R64: without an allocation for the interval its closing clears the debts alone. -/
theorem Allocator.closed_none {a : Allocator} (missed : a.current = none) :
    a.closed delay = { a with inFlight := none, debt := PerProgram.fill 0 } := by
  have current : a.isCurrent = fun _ => false := by
    funext r
    simp [Allocator.isCurrent, missed]
  have taken : a.sentTaken delay = a := by
    simp [Allocator.sentTaken, current]
  rw [Allocator.closed, taken, Allocator.unreportedAppended_none (a := { a with inFlight := none }) missed]
  exact if_pos (by rw [missed]; rfl)

/-! ### The pages that return -/

/-- R119, R123: several returns, one after another. -/
def Store.returns (st : Store) (lists : List (List Nat)) : Store := lists.foldl Store.giveBack st

theorem Store.jobsBack_returns (st : Store) (jobs : List Job) : st.jobsBack jobs = st.returns (jobs.map Job.pages) := by
  rw [Store.returns, List.foldl_map]
  rfl

theorem State.sideStoreBack_returns (s : State) :
    s.sideStoreBack = s.store.returns (s.side.build.map fun b => [b.page]).toList := by
  unfold State.sideStoreBack
  cases s.side.build with
  | none => rfl
  | some b => rfl

theorem Store.returns_append (st : Store) (a b : List (List Nat)) : st.returns (a ++ b) = (st.returns a).returns b :=
  List.foldl_append

theorem sortPages_perm {l : List Nat} (h : l.Nodup) : (sortPages l).Perm l :=
  (List.perm_ext_iff_of_nodup ((sortPages_rising l).imp fun lt => Nat.ne_of_lt lt) h).2 fun _ => mem_sortPages

/-- R123: pages that return each once are free, but for the marked ones. -/
theorem Store.returns_free_length {lists : List (List Nat)} (once : lists.flatten.Nodup) (st : Store) :
    (st.returns lists).free.length = st.free.length + (lists.flatten.filter fun p => p ∉ st.marks).length := by
  induction lists generalizing st with
  | nil => rfl
  | cons pages lists ih =>
    rw [List.flatten_cons, List.nodup_append] at once
    obtain ⟨first, rest, apart⟩ := once
    have back : (st.giveBack pages).free.length = st.free.length + (pages.filter fun p => p ∉ st.marks).length := by
      rw [Store.giveBack_free, List.length_append, ((sortPages_perm first).filter _).length_eq]
      simp only [List.contains_eq_mem, decide_not]
    have marks : (lists.flatten.filter fun p => p ∉ (st.giveBack pages).marks) = lists.flatten.filter fun p => p ∉ st.marks :=
      List.filter_congr fun p mem => by
        have away : p ∉ pages := fun inside => apart p inside p mem rfl
        simp [Store.mem_giveBack_marks, away]
    rw [Store.returns, List.foldl_cons, ← Store.returns, ih rest, back, marks, List.flatten_cons, List.filter_append,
      List.length_append]
    omega

/-- R123: without marks every return joins the tail of the free list in ascending order. -/
theorem Store.returns_unmarked {st : Store} (unmarked : st.marks = []) (lists : List (List Nat)) :
    (st.returns lists).free = st.free ++ lists.flatMap sortPages := by
  induction lists generalizing st with
  | nil => exact (List.append_nil _).symm
  | cons pages lists ih =>
    have marks : (st.giveBack pages).marks = [] := by simp [Store.giveBack, unmarked]
    have all : ((sortPages pages).filter fun p => !st.marks.contains p) = sortPages pages := by simp [unmarked]
    rw [Store.returns, List.foldl_cons, ← Store.returns, ih marks, Store.giveBack_free, all, List.append_assoc]
    rfl

theorem Store.returned_returns {first st : Store} {n : Nat} (h : first.Tracks st n) {lists : List (List Nat)} {pages : List Nat}
    (among : pages ∈ lists) (mem : n ∈ pages) : first.Returned (st.returns lists) n := by
  induction lists generalizing st with
  | nil => cases among
  | cons head lists ih =>
    obtain rfl | behind := List.mem_cons.1 among
    · have back := h.returned_giveBack mem
      clear ih among
      show first.Returned ((st.giveBack pages).returns lists) n
      generalize st.giveBack pages = st at back ⊢
      induction lists generalizing st with
      | nil => exact back
      | cons head lists ih => exact ih _ (back.giveBack head)
    · exact ih (h.giveBack head) behind

theorem Store.returns_notes (st : Store) (lists : List (List Nat)) :
    (st.returns lists).correctable = st.correctable ∧ (st.returns lists).errorNote = st.errorNote := by
  induction lists generalizing st with
  | nil => exact ⟨rfl, rfl⟩
  | cons pages lists ih => exact ih (st.giveBack pages)

/-- R123, R150: the returns of a boundary behind that of a side build, in their order. -/
def State.boundaryReturns (s : State) (lineFirst : Bool) : List (List Nat) :=
  if lineFirst then s.line.sendingPages :: s.recoder.jobs.map Job.pages
  else s.recoder.jobs.map Job.pages ++ [s.line.sendingPages]

theorem State.storeAtBoundary_returns (s : State) (lineFirst : Bool) : s.storeAtBoundary lineFirst =
    s.store.returns ((s.side.build.map fun b => [b.page]).toList ++ s.boundaryReturns lineFirst) := by
  rw [Store.returns_append, ← State.sideStoreBack_returns]
  cases lineFirst with
  | true => exact Store.jobsBack_returns _ _
  | false =>
    show (s.sideStoreBack.jobsBack s.recoder.jobs).giveBack s.line.sendingPages = _
    rw [Store.jobsBack_returns]
    exact (Store.returns_append _ _ [_]).symm

theorem State.storeReported_returns (s : State) (lineFirst : Bool) : s.storeReported lineFirst =
    s.store.returns ((s.side.build.map fun b => [b.page]).toList ++
      ((if lineFirst then [] else s.recoder.jobs.map Job.pages) ++ [s.line.sendingPages])) := by
  rw [Store.returns_append, ← State.sideStoreBack_returns]
  cases lineFirst with
  | true => rfl
  | false =>
    show (s.sideStoreBack.jobsBack s.recoder.jobs).giveBack s.line.sendingPages = _
    rw [Store.jobsBack_returns]
    exact (Store.returns_append _ _ [_]).symm

theorem State.sidePage_flatten (s : State) :
    (s.side.build.map fun b => [b.page]).toList.flatten = (s.side.build.map SideBuild.page).toList := by
  cases s.side.build with
  | none => rfl
  | some b => rfl

/-- R181: the free pages that the line reports. -/
theorem State.lineFigures_freePages (s : State) (lineFirst : Bool) :
    let returned := (s.side.build.map SideBuild.page).toList ++
      (if lineFirst then [] else s.recoder.jobs.flatMap Job.pages) ++ s.line.sendingPages
    returned.Nodup → (s.lineFigures lineFirst).freePages =
      s.store.free.length + (returned.filter fun p => p ∉ s.store.marks).length := by
  intro returned once
  have lists : ((s.side.build.map fun b => [b.page]).toList ++
      ((if lineFirst then [] else s.recoder.jobs.map Job.pages) ++ [s.line.sendingPages])).flatten = returned := by
    rw [List.flatten_append, List.flatten_append, State.sidePage_flatten, ← List.append_assoc, List.flatten_singleton]
    cases lineFirst with
    | true => rfl
    | false =>
      simp only [returned, List.flatMap_def, Bool.false_eq_true, if_false]
  show (s.storeReported lineFirst).free.length = _
  rw [State.storeReported_returns, Store.returns_free_length (lists ▸ once), lists]

/-! ### The sections of a report -/

/-- The number whose bits are given, from bit 0 up. -/
def bitsValue (bits : List Bool) : Nat := bits.foldr Nat.bit 0

theorem testBit_bitsValue : ∀ (bits : List Bool) (i : Nat), (bitsValue bits).testBit i = bits.getD i false
  | [], i => Nat.zero_testBit i
  | b :: bits, 0 => Nat.testBit_bit_zero b (bitsValue bits)
  | b :: bits, i + 1 => (Nat.testBit_bit_succ i b (bitsValue bits)).trans (testBit_bitsValue bits i)

theorem bitsValue_lt : ∀ bits : List Bool, bitsValue bits < 2 ^ bits.length
  | [] => Nat.one_pos
  | b :: bits => by
    have rest := bitsValue_lt bits
    have bit := Bool.toNat_le b
    rw [bitsValue, List.foldr_cons, ← bitsValue, Nat.bit_val, List.length_cons, Nat.pow_succ]
    omega

theorem sectionFlags_eq (n : Notes) (tight pinned starved side cue switch short : Bool) :
    sectionFlags n tight pinned starved side cue switch short = BitVec.ofNat 16 (bitsValue
      [n.configClamped, n.entryUnreadable, n.statusUnwritten, tight, pinned, starved, n.heldFault, n.faultRecordLost
       , n.abandonWriteFault, n.sideFault || side, cue, switch, short]) := by
  have number : ∀ b, boolNat b = b.toNat := fun b => by cases b <;> rfl
  rw [sectionFlags]
  congr 1
  simp only [bitsValue, List.foldr_cons, List.foldr_nil, Nat.bit_val, flagBit, number]
  omega

theorem headerFlags_eq (scaled missed error short : Bool) :
    headerFlags scaled missed error short = BitVec.ofNat 8 (bitsValue [scaled, missed, error, short]) := by
  have number : ∀ b, boolNat b = b.toNat := fun b => by cases b <;> rfl
  rw [headerFlags]
  congr 1
  simp only [bitsValue, List.foldr_cons, List.foldr_nil, Nat.bit_val, flagBit, number]
  omega

/-- 11.2: the bits of a section's or header's flags. -/
theorem getLsbD_bitsValue {w i : Nat} (h : i < w) (bits : List Bool) :
    (BitVec.ofNat w (bitsValue bits)).getLsbD i = bits.getD i false := by
  rw [BitVec.getLsbD_ofNat, testBit_bitsValue, decide_eq_true h, Bool.true_and]

theorem toNat_bitsValue {w : Nat} {bits : List Bool} (h : bits.length ≤ w) :
    (BitVec.ofNat w (bitsValue bits)).toNat < 2 ^ bits.length := by
  have small := bitsValue_lt bits
  rw [BitVec.toNat_ofNat, Nat.mod_eq_of_lt (lt_of_lt_of_le small (Nat.pow_le_pow_right (by decide) h))]
  exact small

/-- R87, R89: the figures of a program whose jobs end LATE are those of the last of them. -/
theorem look_lateFigures (jobs : List Job) (figures : PerProgram (Option JobFigures)) (p : Program) :
    (lateFigures jobs figures).look p =
      ((jobs.filter fun j => j.program = p).getLast?.map Job.lateFigures).or (figures.look p) := by
  induction jobs using List.reverseRecOn with
  | nil => rfl
  | append_singleton jobs j ih =>
    rw [lateFigures, List.foldl_append, List.foldl_cons, List.foldl_nil, ← lateFigures, PerProgram.look_put, List.filter_append]
    by_cases same : j.program = p
    · rw [if_pos same, List.filter_cons_of_pos (by simp [same]), List.filter_nil, List.getLast?_concat]
      rfl
    · rw [if_neg same, List.filter_cons_of_neg (by simp [same]), List.filter_nil, List.append_nil, ih]

section

variable (s : State) (lineFirst : Bool) (p : Program)

theorem State.closedSection_job : (s.listsClosed lineFirst).recoder.figures.look p =
    ((s.recoder.jobs.filter fun j => j.program = p).getLast?.map Job.lateFigures).or (s.recoder.figures.look p) :=
  look_lateFigures _ _ _

theorem State.closedSection_current : (s.listsClosed lineFirst).allocator.current = s.allocator.current :=
  s.allocator.closed_fields.2.1

/-- R181: the section of a program in the report of the closing interval. -/
def State.closedSection : SectionFigures := (s.listsClosed lineFirst).sectionOf (s.lineFigures lineFirst) p

variable {s lineFirst p}

/-- R87, R89: what a section shows of its program's job. -/
theorem State.closedSection_of_job {job : Option JobFigures}
    (figures : (s.listsClosed lineFirst).recoder.figures.look p = job) :
    (s.closedSection lineFirst p).outcome = job.bind JobFigures.outcome ∧
      (s.closedSection lineFirst p).pass = job.elim 0 JobFigures.pass ∧
      (s.closedSection lineFirst p).cells = job.elim 0 JobFigures.cells ∧
      (s.closedSection lineFirst p).meanQ = job.elim 0 JobFigures.meanQ := by
  subst figures
  exact ⟨rfl, rfl, rfl, rfl⟩

theorem State.closedSection_flags (grant : Option Grant)
    (granted : (s.allocator.current.bind fun a => a.grants.find? fun g => g.program = p) = grant) :
    (s.closedSection lineFirst p).budget = grant.elim 0 Grant.budget ∧
      (s.closedSection lineFirst p).flags = BitVec.ofNat 16 (bitsValue
        [(s.controller.notes.look p).configClamped, (s.controller.notes.look p).entryUnreadable
         , (s.controller.notes.look p).statusUnwritten, grant.elim false Grant.tight, grant.elim false Grant.pinned
         , s.allocator.current.any fun a => a.holds.any fun h => h.program = p && h.starved
         , (s.controller.notes.look p).heldFault, (s.controller.notes.look p).faultRecordLost
         , (s.controller.notes.look p).abandonWriteFault, (s.controller.notes.look p).sideFault || s.side.faultNote.look p
         , s.side.cueNote.look p, (s.keys.records.look p).switchHeld
         , decide ((s.line.sending.look p).next < (s.line.sending.look p).entries.length)]) := by
  have short : (s.lineFigures lineFirst).discards.look p =
      decide ((s.line.sending.look p).next < (s.line.sending.look p).entries.length) := by
    rw [State.lineFigures, PerProgram.look_tabulate, Sending.unsent]
    exact decide_eq_decide.2 Nat.sub_pos_iff_lt
  subst granted
  rw [← short, ← sectionFlags_eq, ← s.closedSection_current lineFirst]
  exact ⟨rfl, rfl⟩

theorem State.closedSection_values (s : State) (lineFirst : Bool) (p : Program) :
    (s.closedSection lineFirst p).program = p ∧ (s.closedSection lineFirst p).state = (s.ctx p).state ∧
      (s.closedSection lineFirst p).debt = (s.allocator.closed s.delayOf).debt.look p ∧
      (s.closedSection lineFirst p).delivered = ((s.allocator.closed s.delayOf).delivered.look p).sum := by
  simp only [State.closedSection, State.sectionOf, State.listsClosed, State.ctx, and_self]

/-- R181: one section of the report, from the closed lists. -/
theorem State.section_closed (s : State) (lineFirst : Bool) (p : Program) :
    s.Section ((s.allocator.closed s.delayOf).debt.look p) ((s.allocator.closed s.delayOf).delivered.look p).sum
      (s.closedSection lineFirst p) := by
  have job := s.closedSection_job lineFirst p
  have shown := fun job => State.closedSection_of_job (s := s) (lineFirst := lineFirst) (p := p) (job := job)
  have granted := fun grant => State.closedSection_flags (s := s) (lineFirst := lineFirst) (p := p) grant
  obtain ⟨program, state, debt, delivered⟩ := s.closedSection_values lineFirst p
  generalize s.closedSection lineFirst p = g at *
  generalize (s.allocator.closed s.delayOf).debt.look p = owed at *
  generalize ((s.allocator.closed s.delayOf).delivered.look p).sum = given_ at *
  generalize (s.listsClosed lineFirst).recoder.figures.look p = figures at *
  subst program
  obtain ⟨-, flags⟩ := granted _ rfl
  have bit : ∀ i < 16, g.flags.getLsbD i = _ := fun i h => by rw [flags, getLsbD_bitsValue h]
  constructor
  case state => exact state
  case debt => exact debt
  case delivered => exact delivered
  case noJob =>
    intro others idle
    have nobody : (s.recoder.jobs.filter fun j => j.program = g.program) = [] :=
      List.filter_eq_nil_iff.2 fun j mem => by simpa using others j mem
    rw [nobody, show s.recoder.figures.look g.program = none from idle] at job
    exact shown _ job
  case ended =>
    intro x others figures
    have nobody : (s.recoder.jobs.filter fun j => j.program = g.program) = [] :=
      List.filter_eq_nil_iff.2 fun j mem => by simpa using others j mem
    rw [nobody, show s.recoder.figures.look g.program = some x from figures] at job
    exact shown _ job
  case late =>
    intro j last
    rw [show (s.recoder.jobs.filter fun j => j.program = g.program).getLast? = some j from last] at job
    exact shown _ job
  case grant =>
    intro a x current found
    have grant : (s.allocator.current.bind fun a => a.grants.find? fun x => x.program = g.program) = some x := by
      rw [current]
      exact found
    obtain ⟨budget, flags⟩ := granted _ grant
    exact ⟨budget, by rw [flags, getLsbD_bitsValue (by decide)]; rfl, by rw [flags, getLsbD_bitsValue (by decide)]; rfl⟩
  case noGrant =>
    intro others
    have grant : (s.allocator.current.bind fun a => a.grants.find? fun x => x.program = g.program) = none := by
      cases current : s.allocator.current with
      | none => rfl
      | some a => exact List.find?_eq_none.2 fun x mem => by simpa using others a current x mem
    obtain ⟨budget, flags⟩ := granted _ grant
    exact ⟨budget, by rw [flags, getLsbD_bitsValue (by decide)]; rfl, by rw [flags, getLsbD_bitsValue (by decide)]; rfl⟩
  case configClamped => exact bit 0 (by decide)
  case entryUnreadable => exact bit 1 (by decide)
  case statusUnwritten => exact bit 2 (by decide)
  case starved =>
    rw [bit 5 (by decide)]
    show (s.allocator.current.any _) = true ↔ _
    simp only [Option.any_eq_true, List.any_eq_true, Bool.and_eq_true, decide_eq_true_eq]
  case heldFault => exact bit 6 (by decide)
  case faultRecordLost => exact bit 7 (by decide)
  case abandonWriteFault => exact bit 8 (by decide)
  case sideFault => exact bit 9 (by decide)
  case cueLatched => exact bit 10 (by decide)
  case switchHeld => exact bit 11 (by decide)
  case lineShortfall => exact bit 12 (by decide)
  case noOther =>
    rw [flags]
    refine lt_of_lt_of_eq (toNat_bitsValue ?_) ?_
    · simp only [List.length_cons, List.length_nil, Nat.reduceAdd, Nat.reduceLeDiff]
    · simp only [List.length_cons, List.length_nil, Nat.reduceAdd, Nat.reducePow]

end

theorem Line.shortfallRaised_settings (l : Line) (c : Control) : (l.shortfallRaised c).settings = c.settings := by
  unfold Line.shortfallRaised
  split
  · rfl
  · rfl

theorem State.listsClosed_settingsD (s : State) (lineFirst : Bool) : (s.listsClosed lineFirst).settingsD = s.settingsD := by
  simp only [State.settingsD, State.listsClosed, Line.shortfallRaised_settings]

/-- R181: the fields of the figures that a closing interval hands over. -/
theorem State.closedFigures_values (s : State) (lineFirst : Bool) :
    ((s.closedFigures lineFirst).interval = s.timer.number ∧
      (s.closedFigures lineFirst).pool = s.allocator.current.elim 0 Allocation.pool ∧
      (s.closedFigures lineFirst).reserve = s.allocator.current.elim 0 Allocation.reserve ∧
      (s.closedFigures lineFirst).spare = s.recoder.spare ∧ (s.closedFigures lineFirst).nulls = s.line.nulls ∧
      (s.closedFigures lineFirst).shortfall =
        (programs.map fun p => (s.line.sending.look p).entries.length - (s.line.sending.look p).next).sum ∧
      (s.closedFigures lineFirst).correctable = s.store.correctable ∧
      (s.closedFigures lineFirst).freePages = (s.lineFigures lineFirst).freePages) ∧
    (s.closedFigures lineFirst).sections =
      (sectionPrograms s.settingsD.firstProgram s.settingsD.lastProgram).map (s.closedSection lineFirst) ∧
    (s.closedFigures lineFirst).flags = BitVec.ofNat 8 (bitsValue [s.allocator.current.any Allocation.scaled
      , s.allocator.current.isNone, s.store.errorNote, decide (0 < (s.closedFigures lineFirst).shortfall)]) := by
  have current := s.closedSection_current lineFirst
  have figures : s.closedFigures lineFirst =
      (s.listsClosed lineFirst).gatherFigures (s.lineFigures lineFirst) s.recoder.spare (s.listsClosed lineFirst).drainEnds := by
    rw [State.closedFigures, State.closedLists_eq]
  obtain ⟨correctable, error⟩ := s.store.returns_notes
    ((s.side.build.map fun b => [b.page]).toList ++ s.boundaryReturns lineFirst)
  rw [← State.storeAtBoundary_returns] at correctable error
  have scaled : s.allocator.current.any Allocation.scaled = s.allocator.current.elim false Allocation.scaled := by
    cases s.allocator.current with
    | none => rfl
    | some a => rfl
  rw [figures, ← headerFlags_eq, scaled, ← current, ← correctable, ← error]
  refine ⟨⟨rfl, rfl, rfl, rfl, rfl, rfl, rfl, rfl⟩, ?_, rfl⟩
  rw [State.gatherFigures, State.listsClosed_settingsD]
  rfl

/-- R181: the figures that a closing interval hands to the report unit. -/
theorem State.gathers_closed (s : State) (lineFirst : Bool) :
    s.Gathers lineFirst (fun p => (s.allocator.closed s.delayOf).debt.look p)
      (fun p => ((s.allocator.closed s.delayOf).delivered.look p).sum) (s.closedFigures lineFirst) := by
  obtain ⟨values, sections, flags⟩ := s.closedFigures_values lineFirst
  obtain ⟨interval, pool, reserve, spare, nulls, shortfall, correctable, free⟩ := values
  have freePages := s.lineFigures_freePages lineFirst
  generalize s.closedFigures lineFirst = f at *
  constructor
  case interval => exact interval
  case pool => exact pool
  case reserve => exact reserve
  case spare => exact spare
  case nulls => exact nulls
  case shortfall => exact shortfall
  case correctable => exact correctable
  case freePages => exact fun once => free.trans (freePages once)
  case minimaScaled =>
    rw [flags, getLsbD_bitsValue (by decide)]
    rfl
  case intervalMissed =>
    rw [flags, getLsbD_bitsValue (by decide)]
    rfl
  case storeError =>
    rw [flags, getLsbD_bitsValue (by decide)]
    rfl
  case lineShortfall =>
    rw [flags, getLsbD_bitsValue (by decide)]
    rfl
  case noOther =>
    rw [flags]
    refine lt_of_lt_of_eq (toNat_bitsValue ?_) ?_
    · simp only [List.length_cons, List.length_nil, Nat.reduceAdd, Nat.reduceLeDiff]
    · simp only [List.length_cons, List.length_nil, Nat.reduceAdd, Nat.reducePow]
  case count =>
    rw [sections, List.length_map, sectionPrograms, List.length_map, List.length_range]
  case sections =>
    intro i g found
    rw [sections, List.getElem?_map, sectionPrograms, List.getElem?_map] at found
    obtain ⟨p, among, rfl⟩ := Option.map_eq_some_iff.1 found
    obtain ⟨k, range, rfl⟩ := Option.map_eq_some_iff.1 among
    obtain ⟨-, rfl⟩ := List.getElem?_eq_some_iff.1 range
    rw [List.getElem_range]
    have program := (s.closedSection_values lineFirst (s.settingsD.firstProgram + Fin.ofNat 16 i)).1
    exact ⟨program, program.symm ▸ s.section_closed lineFirst _⟩

end Sys2Proof.Machine

/-! PROOFS. A boundary closes one interval and opens the next in every block (O46; 10, R175). -/

namespace Sys2Proof.Machine

variable {s : State} {lineFirst : Bool}

/-- R175: the next interval, before the report and the intake begin. -/
theorem State.nextInterval_eq (s : State) (lineFirst : Bool) : s.nextInterval lineFirst = { s with
    control := s.line.shortfallRaised s.control
    timer := { s.timer with number := s.timer.number + 1 }
    link := { s.link with
      accesses := s.link.accesses.filter fun a => a.agent ≠ .side ∧ a.agent ≠ .engine .re0 ∧ a.agent ≠ .engine .re1 }
    controller := { s.controller with
      reports := s.controller.reports ++ s.recoder.jobs.map Job.lateReport, notes := PerProgram.fill Notes.clear }
    allocator := { s.allocator.closed s.delayOf with current := none, reported := [], isOpen := true }
    recoder := { s.recoder with
      queue := [], re0 := { s.recoder.re0 with phase := .idle }, re1 := { s.recoder.re1 with phase := .idle }
      figures := PerProgram.fill none, spare := 0 }
    side := { s.side with
      queue := ((s.side.reserved.filter fun r => r.state ≠ .built).map Reserved.message) ++ s.side.queue
      reserved := [], build := none, stopped := false
      faultNote := PerProgram.fill false, cueNote := PerProgram.fill false }
    store := { s.storeAtBoundary lineFirst with correctable := 0, errorNote := false }
    line := s.line.swap } := by
  rw [State.nextInterval, State.intervalClosed_eq]
  simp only [State.listsClosed]

theorem State.nextInterval_settingsD (s : State) (lineFirst : Bool) : (s.nextInterval lineFirst).settingsD = s.settingsD := by
  simp only [State.nextInterval_eq, State.settingsD, Line.shortfallRaised_settings]

/-! ### The report of the closed interval -/

section

variable {n : State} {f : Figures}

/-- R170, R180: a boundary that ends no drain touches the report unit and its access alone. -/
structure ReportBegun (n : State) (f : Figures) (u : State) : Prop where
  rest : u = { n with link := u.link, reporter := u.reporter }
  link : u.link = { n.link with
    accesses := n.link.accesses ++
      (if n.reporter.isOn && n.reporter.work.isNone then
        [{ tag := n.link.nextTag, agent := .report, kind := .read, addr := n.settingsD.directory + 0x3C, length := 4
           key := none, region := 0xFF, data := [] }]
      else [])
    nextTag := n.link.nextTag + (if n.reporter.isOn && n.reporter.work.isNone then 1 else 0) }
  off : n.reporter.isOn = false → u.reporter = n.reporter
  busy : n.reporter.isOn = true → n.reporter.work ≠ none →
    u.reporter = { n.reporter with waiting := n.reporter.waiting ++ [f] }
  begins : n.reporter.isOn = true → n.reporter.work = none → n.reporter.waiting = [] →
    u.reporter = { n.reporter with work := some { figures := f, phase := .consumed } }

theorem State.reportBoundary_begun (goesOn : f.endsDrain = false) : ReportBegun n f (n.reportBoundary f) := by
  cases isOn : n.reporter.isOn with
  | false =>
    have same : n.reportBoundary f = n := by
      rw [State.reportBoundary, if_neg (by simp [isOn]), if_neg (by simp [goesOn])]
    rw [same]
    refine ⟨rfl, ?_, fun _ => rfl, fun h => ?_, fun h => ?_⟩
    · rw [isOn]
      exact congrArg (fun a => ({ n.link with accesses := a } : Link)) (List.append_nil _).symm
    · rw [isOn] at h; cases h
    · rw [isOn] at h; cases h
  | true =>
    have queued : n.reportBoundary f =
        State.startReport { n with reporter := { n.reporter with waiting := n.reporter.waiting ++ [f] } } := by
      rw [State.reportBoundary_on isOn, goesOn, Bool.or_false]
    rw [queued]
    cases work : n.reporter.work with
    | some w =>
      rw [State.startReport_waits (s := { n with reporter := { n.reporter with waiting := n.reporter.waiting ++ [f] } }) work]
      refine ⟨rfl, ?_, fun h => ?_, fun _ _ => rfl, fun _ h => ?_⟩
      · rw [isOn, work]
        exact congrArg (fun a => ({ n.link with accesses := a } : Link)) (List.append_nil _).symm
      · rw [isOn] at h; cases h
      · rw [work] at h; cases h
    | none =>
      have waits : ∃ g rest, n.reporter.waiting ++ [f] = g :: rest := by
        cases n.reporter.waiting with
        | nil => exact ⟨f, [], rfl⟩
        | cons g rest => exact ⟨g, rest ++ [f], rfl⟩
      obtain ⟨g, rest, waiting⟩ := waits
      rw [State.startReport_cons (s := { n with reporter := { n.reporter with waiting := n.reporter.waiting ++ [f] } }) work
        waiting]
      refine ⟨rfl, ?_, fun h => ?_, fun _ h => absurd work h, fun _ _ none => ?_⟩
      · rw [isOn, work]
        rfl
      · rw [isOn] at h; cases h
      · rw [none] at waiting
        cases waiting
        show ({ n.reporter with work := some { figures := f, phase := .consumed }, waiting := [] } : Reporter) = _
        rw [← none]

end

/-! ### The intake of the new interval -/

/-- What a boundary's intake, if one begins, leaves as it was. -/
structure IntakeBegun (u t : State) : Prop where
  frame : RunFrame u t
  events : t.control.events = u.control.events
  allocator : t.allocator = u.allocator
  counters : t.recoder.counters = u.recoder.counters
  side : t.side.counters = u.side.counters

theorem IntakeBegun.refl (u : State) : IntakeBegun u u := ⟨.refl u, rfl, rfl, rfl, rfl⟩

theorem State.beginIntake_begun (u : State) : IntakeBegun u u.beginIntake := by
  obtain ⟨control, allocator, counters, side, -⟩ := u.beginIntake_refused
  exact ⟨(RunFrame.refl u).beginIntake, by rw [control], allocator, counters, side⟩

theorem State.intakeAtBoundary_begun (u : State) : IntakeBegun u u.intakeAtBoundary := by
  unfold State.intakeAtBoundary
  split
  · exact .refl u
  · exact u.beginIntake_begun

theorem State.intakeAtBoundary_stays {u : State} (h : u.controller.intake ≠ none ∨ u.control.drainEnding = true) :
    u.intakeAtBoundary = u := by
  refine if_pos ?_
  obtain late | ending := h
  · simp [Option.isSome_iff_ne_none.2 late]
  · simp [ending]

theorem State.intakeAtBoundary_begins {u : State} (free : u.controller.intake = none) (goesOn : u.control.drainEnding = false)
    (active : u.control.device ≠ .idle) : u.intakeAtBoundary = u.beginIntake :=
  if_neg (by simp [free, goesOn, active])

/-- R175: what a boundary that ends no drain leaves of the new interval, whatever its intake meets. -/
structure IntervalBegun (n t : State) : Prop where
  device : t.control.device = n.control.device
  events : t.control.events = n.control.events
  timer : t.timer = n.timer
  allocator : t.allocator = n.allocator
  reports : t.controller.reports = n.controller.reports
  recoder : t.recoder = n.recoder
  slots : t.keys.slots = n.keys.slots
  store : t.store = n.store
  line : t.line = n.line
  side : t.side.queue = n.side.queue ∧ t.side.reserved = n.side.reserved ∧ t.side.build = n.side.build ∧
    t.side.counters = n.side.counters

theorem IntakeBegun.interval {n u t : State} (h : IntakeBegun u t) (rest : u = { n with link := u.link, reporter := u.reporter }) :
    IntervalBegun n t where
  device := (congrArg Control.device h.frame.control :).trans (congrArg (fun u : State => u.control.device) rest :)
  events := h.events.trans (congrArg (fun u : State => u.control.events) rest :)
  timer := h.frame.timer.trans (congrArg State.timer rest :)
  allocator := h.allocator.trans (congrArg State.allocator rest :)
  reports := h.frame.reports.trans (congrArg (fun u : State => u.controller.reports) rest :)
  recoder := by
    have same := h.frame.recoder
    rw [h.counters] at same
    exact same.trans (congrArg State.recoder rest :)
  slots := (congrArg Keys.slots h.frame.keys :).trans (congrArg (fun u : State => u.keys.slots) rest :)
  store := h.frame.store.trans (congrArg State.store rest :)
  line := h.frame.line.trans (congrArg State.line rest :)
  side := ⟨(congrArg Side.queue h.frame.side :).trans (congrArg (fun u : State => u.side.queue) rest :)
    , (congrArg Side.reserved h.frame.side :).trans (congrArg (fun u : State => u.side.reserved) rest :)
    , (congrArg Side.build h.frame.side :).trans (congrArg (fun u : State => u.side.build) rest :)
    , h.side.trans (congrArg (fun u : State => u.side.counters) rest :)⟩

theorem State.completeAtBoundary_exec (idle : s.allocator.inFlight = none) (lineFirst : Bool) :
    exec (.boundary { lineFirst := lineFirst, allocationFirst := true }) s =
      exec (.boundary { lineFirst := lineFirst, allocationFirst := false }) s := by
  change execBoundary _ s = execBoundary _ s
  simp only [execBoundary, if_true, Bool.false_eq_true, if_false, State.completeAtBoundary_none idle]

theorem Allocator.isCurrent_open {a : Allocator} {c : Allocation} (current : a.current = some c) (isOpen : a.isOpen = true)
    (r : CompletionReport) : a.isCurrent r = true ↔ r.interval = c.interval := by
  rw [Allocator.isCurrent_iff]
  exact ⟨fun ⟨_, d, h, same⟩ => by rw [current] at h; cases h; exact same.symm, fun same => ⟨isOpen, c, current, same.symm⟩⟩

theorem Line.shortfallRaised_event {l : Line} (short : 0 < l.unsentTotal) (c : Control) :
    (l.shortfallRaised c).events.getLsbD 7 = true := by
  rw [Line.shortfallRaised, if_pos short]
  simp [Control.drive, EventFlag.bit]

/-- R175: the next interval once the report of the closed one is on its way. -/
def State.reportOnWay (s : State) (lineFirst : Bool) : State :=
  (s.nextInterval lineFirst).reportBoundary (s.closedFigures lineFirst)

/-- The access with which a report begins. -/
def State.reportAccess (s : State) : List Access :=
  if s.reporter.isOn && s.reporter.work.isNone then
    [{ tag := s.link.nextTag, agent := .report, kind := .read, addr := s.settingsD.directory + 0x3C, length := 4
       key := none, region := 0xFF, data := [] }]
  else []

/-- R175, R180: the blocks that a boundary's intake changes, before it. -/
structure ReportedInterval (s : State) (lineFirst : Bool) (u : State) : Prop where
  control : u.control.drainEnding = s.control.drainEnding ∧ u.control.device = s.control.device
  settings : u.settingsD = s.settingsD
  number : u.timer.number = s.timer.number + 1
  controller : u.controller = { s.controller with
    reports := u.controller.reports, notes := PerProgram.fill Notes.clear }
  side : u.side = { s.side with
    queue := u.side.queue, reserved := [], build := none, stopped := false, faultNote := PerProgram.fill false
    cueNote := PerProgram.fill false }
  link : u.link = { s.link with
    accesses := (s.link.accesses.filter fun a => a.agent ≠ .side ∧ a.agent ≠ .engine .re0 ∧ a.agent ≠ .engine .re1) ++
      s.reportAccess
    nextTag := s.link.nextTag + (if s.reporter.isOn && s.reporter.work.isNone then 1 else 0) }
  off : s.reporter.isOn = false → u.reporter = s.reporter
  busy : s.reporter.isOn = true → s.reporter.work ≠ none →
    u.reporter = { s.reporter with waiting := s.reporter.waiting ++ [s.closedFigures lineFirst] }
  begins : s.reporter.isOn = true → s.reporter.work = none → s.reporter.waiting = [] →
    u.reporter = { s.reporter with work := some { figures := s.closedFigures lineFirst, phase := .consumed } }

theorem State.reportOnWay_values (goesOn : (s.closedFigures lineFirst).endsDrain = false) :
    ReportedInterval s lineFirst (s.reportOnWay lineFirst) := by
  obtain ⟨device, -, ending⟩ := s.line.shortfallRaised_values s.control
  obtain ⟨rest, link, off, busy, begins⟩ := State.reportBoundary_begun (n := s.nextInterval lineFirst) goesOn
  have next := s.nextInterval_eq lineFirst
  have settings := s.nextInterval_settingsD lineFirst
  rw [← State.reportOnWay] at rest link off busy begins
  generalize s.reportOnWay lineFirst = u at *
  have control : u.control = (s.nextInterval lineFirst).control := (congrArg State.control rest :)
  have settingsU : u.settingsD = (s.nextInterval lineFirst).settingsD := by rw [State.settingsD, control]; rfl
  rw [next] at off busy begins
  refine ⟨⟨by rw [control, next]; exact ending, by rw [control, next]; exact device⟩, settingsU.trans settings, ?_, ?_, ?_, ?_
    , off, busy, begins⟩
  · rw [rest, next]
  · rw [rest, next]
  · rw [rest, next]
  · rw [link, settings, next]
    rfl

/-- R60 to R63: the completions of the closing interval, the entries of 8 and the debts. -/
theorem Allocator.closed_shared {a : Allocator} {c : Allocation} (delay : Program → Nat) (current : a.current = some c)
    (isOpen : a.isOpen = true) (distinct : ((c.grants.map Grant.program) ++ (c.holds.map Hold.program)).Nodup) :
    ((a.closed delay).reports = a.reports.filter fun r => r.interval ≠ c.interval) ∧ ∀ p,
      let sent := a.reports.filter fun r => r.interval = c.interval ∧ r.program = p
      let held := (p ∈ c.grants.map Grant.program ∧ p ∉ a.reported ∧ sent = []) ∨ p ∈ c.holds.map Hold.program
      let sizes := sent.map CompletionReport.size ++ (if held then [8] else [])
      (a.closed delay).debt.look p = (sent.getLast?.map CompletionReport.debt).getD (a.debt.look p) ∧
        (a.closed delay).delivered.look p =
          if sizes = [] then a.delivered.look p
          else (a.delivered.look p ++ sizes).drop ((a.delivered.look p).length + sizes.length - delay p) := by
  have isCurrent := Allocator.isCurrent_open current isOpen
  refine ⟨?_, fun p => ?_⟩
  · rw [a.closed_fields.2.2.2]
    refine List.filter_congr fun r _ => ?_
    by_cases same : r.interval = c.interval
    · rw [(isCurrent r).2 same]
      simp [same]
    · rw [Bool.eq_false_iff.2 (mt (isCurrent r).1 same)]
      simp [same]
  · have sent : (a.reports.filter fun r => a.isCurrent r ∧ r.program = p) =
        a.reports.filter fun r => r.interval = c.interval ∧ r.program = p :=
      List.filter_congr fun r _ => decide_eq_decide.2 (and_congr (isCurrent r) Iff.rfl)
    have closed := Allocator.closed_some (delay := delay) current distinct p
    rw [sent] at closed
    exact closed

/-- R119, R123: the line's and the jobs' pages are back. -/
theorem State.storeAtBoundary_returned {ps : List Nat} (among : ps ∈ s.line.sendingPages :: s.recoder.jobs.map Job.pages)
    {q : Nat} (mem : q ∈ ps) : s.store.Returned (s.storeAtBoundary lineFirst) q := by
  rw [State.storeAtBoundary_returns]
  refine Store.returned_returns (Store.Tracks.refl s.store q) (List.mem_append_right _ ?_) mem
  cases lineFirst with
  | true => exact among
  | false =>
    obtain rfl | job := List.mem_cons.1 among
    · exact List.mem_append_right _ List.mem_cons_self
    · exact List.mem_append_left _ job

/-- R123: without marks the pages return in the order of the boundary. -/
theorem State.storeAtBoundary_free (unmarked : s.store.marks = []) :
    (s.storeAtBoundary lineFirst).free = s.store.free ++ (s.side.build.map SideBuild.page).toList ++
      (if lineFirst then sortPages s.line.sendingPages ++ s.recoder.jobs.flatMap fun j => sortPages j.pages
       else (s.recoder.jobs.flatMap fun j => sortPages j.pages) ++ sortPages s.line.sendingPages) := by
  have side : (s.side.build.map fun b => [b.page]).toList.flatMap sortPages = (s.side.build.map SideBuild.page).toList := by
    cases s.side.build with
    | none => rfl
    | some b => rfl
  rw [State.storeAtBoundary_returns, Store.returns_unmarked unmarked, List.flatMap_append, side, ← List.append_assoc]
  congr 1
  cases lineFirst with
  | true =>
    rw [State.boundaryReturns, if_pos rfl, if_pos rfl, List.flatMap_cons, List.flatMap_map]
  | false =>
    rw [State.boundaryReturns, if_neg Bool.false_ne_true, if_neg Bool.false_ne_true, List.flatMap_append, List.flatMap_map,
      List.flatMap_singleton]

/-- R1, R175: the intake that a boundary begins, or the one it leaves in flight. -/
theorem ReportedInterval.intake {u : State} (h : ReportedInterval s lineFirst u) (active : s.control.device ≠ .idle) :
    (s.controller.intake ≠ none ∨ s.control.drainEnding = true → u.intakeAtBoundary = u) ∧
      (s.controller.intake = none → s.control.drainEnding = false → u.intakeAtBoundary = u.beginIntake) := by
  obtain ⟨ending, device⟩ := h.control
  have intake : u.controller.intake = s.controller.intake := (congrArg Controller.intake h.controller :)
  exact ⟨fun late => State.intakeAtBoundary_stays (by rw [intake, ending]; exact late)
    , fun free goesOn => State.intakeAtBoundary_begins (intake.trans free) (ending.trans goesOn) (device ▸ active)⟩

/-- R1, R175: what a boundary leaves of the blocks its intake changes, where the first read of that intake is accepted. -/
theorem ReportedInterval.whole {u : State} (h : ReportedInterval s lineFirst u) (active : s.control.device ≠ .idle)
    {region : Byte} {starts : Bool} (isStart : starts = (s.controller.intake.isNone && !s.control.drainEnding))
    (passes : starts = true →
      checkAccess s.link.regions (readRequest .intake (some 0) s.settingsD.programTable 16) = .ok region) :
    let t := u.intakeAtBoundary
    t.controller = { s.controller with
      reports := u.controller.reports, notes := PerProgram.fill Notes.clear
      intakeNotes := if starts then PerProgram.fill Notes.clear else s.controller.intakeNotes
      intake :=
        if starts then some { interval := s.timer.number + 1, program := 0, takes := 0, halted := false, phase := .live }
        else s.controller.intake } ∧
    t.side = u.side ∧
    t.link = { s.link with
      accesses := (s.link.accesses.filter fun a => a.agent ≠ .side ∧ a.agent ≠ .engine .re0 ∧ a.agent ≠ .engine .re1) ++
        s.reportAccess ++
        (if starts then
          [{ tag := s.link.nextTag + (if s.reporter.isOn && s.reporter.work.isNone then 1 else 0), agent := .intake
             kind := .read, addr := s.settingsD.programTable, length := 16, key := some 0, region := region, data := [] }]
        else [])
      nextTag := s.link.nextTag + (if s.reporter.isOn && s.reporter.work.isNone then 1 else 0) + (if starts then 1 else 0) } ∧
    t.reporter = u.reporter := by
  intro t
  obtain ⟨stays, begins⟩ := h.intake active
  obtain ⟨-, settings, number, controller, -, link, -, -, -⟩ := h
  cases starts with
  | false =>
    have late : s.controller.intake ≠ none ∨ s.control.drainEnding = true := by
      cases intake : s.controller.intake with
      | none => exact .inr (by simpa [intake] using isStart)
      | some i => exact .inl nofun
    have same : t = u := stays late
    rw [same]
    refine ⟨controller, rfl, ?_, rfl⟩
    rw [link, if_neg Bool.false_ne_true, if_neg Bool.false_ne_true, List.append_nil]
    rfl
  | true =>
    have free : s.controller.intake = none ∧ s.control.drainEnding = false := by
      simpa [Option.isNone_iff_eq_none] using isStart.symm
    have accepted : checkAccess u.link.regions (readRequest .intake (some 0) u.settingsD.programTable 16) = .ok region := by
      rw [link, settings]
      exact passes rfl
    have begun : t = u.beginIntake := begins free.1 free.2
    rw [begun, State.beginIntake_of_ok accepted, settings, number]
    refine ⟨?_, rfl, ?_, rfl⟩
    · rw [controller]
      rfl
    · rw [link]
      rfl

/-- Settles O46. -/
theorem boundaryClosesTheInterval : Obligations.BoundaryClosesTheInterval := by
  unfold Obligations.BoundaryClosesTheInterval
  intro s lineFirst running device
  have active : s.control.device ≠ .idle := by
    obtain run | ⟨drain, -⟩ := device
    · rw [run]; decide
    · rw [drain]; decide
  have goesOn : (s.closedFigures lineFirst).endsDrain = false := by
    rw [Bool.eq_false_iff]
    intro ends
    obtain ⟨draining, notice, ending, empty, queue⟩ := (s.closedFigures_endsDrain lineFirst).1 ends
    obtain run | ⟨-, early | before | fault | ⟨p, parts | held⟩⟩ := device
    · rw [run] at draining; cases draining
    · rw [early] at notice; cases notice
    · rw [before] at ending; cases ending
    · exact fault queue
    · exact parts (empty p).1
    · exact held (empty p).2
  have deviceSame := (s.line.shortfallRaised_values s.control).1
  have report := State.reportBoundary_begun (n := s.nextInterval lineFirst) goesOn
  have begun := ((s.nextInterval lineFirst).reportBoundary (s.closedFigures lineFirst)).intakeAtBoundary_begun.interval report.rest
  rw [← State.boundary_nextInterval, State.nextInterval_eq] at begun
  obtain ⟨rotation, -, cleared, -⟩ := s.allocator.closed_fields (delay := s.delayOf)
  refine ⟨fun idle => State.completeAtBoundary_exec idle lineFirst, s.boundary lineFirst
    , exec_boundary_running running lineFirst, ?_⟩
  have boundary : s.boundary lineFirst = (s.reportOnWay lineFirst).intakeAtBoundary := s.boundary_nextInterval lineFirst
  have onWay := State.reportOnWay_values (s := s) (lineFirst := lineFirst) goesOn
  have gathers := s.gathers_closed lineFirst
  generalize s.reportOnWay lineFirst = u at *
  generalize s.boundary lineFirst = t at *
  obtain ⟨device', events, timer, allocator, jobReports, recoder, slots, store, line, queue, reserved, build, counters⟩ := begun
  rw [device', events, timer, allocator, jobReports, recoder, slots, store, line, queue, reserved, build, counters]
  refine ⟨deviceSame, rfl, cleared, rfl, rfl, rotation, fun missed => ?missed, fun a current isOpen distinct => ?shared, rfl
    , rfl, rfl, rfl, rfl, rfl, fun ps among q mem => State.storeAtBoundary_returned among mem, State.storeAtBoundary_free
    , rfl, rfl, rfl, rfl, fun p => ?lists, rfl, rfl, rfl, rfl, rfl, rfl, fun short => Line.shortfallRaised_event short s.control
    , rfl, rfl, rfl, rfl, fun late => ?late, fun free open_ => ?starts, ?whole⟩
  case missed =>
    rw [Allocator.closed_none missed]
    exact ⟨rfl, rfl, rfl⟩
  case shared => exact Allocator.closed_shared s.delayOf current isOpen distinct
  case lists => simp only [Line.swap, PerProgram.look_tabulate, PerProgram.look_fill, and_self]
  case late => rw [boundary, (onWay.intake active).1 late, onWay.controller]
  case starts =>
    obtain ⟨i, intake, interval, -⟩ := u.beginIntake_refused.intake
    rw [boundary, (onWay.intake active).2 free open_]
    exact ⟨i, intake, interval.trans onWay.number⟩
  case whole =>
    intro region starts reporting passes
    obtain ⟨controller, side, link, reporter⟩ := onWay.whole active (starts := starts) rfl passes
    rw [← boundary] at controller side link reporter
    have jobs := (congrArg Controller.reports controller :).symm.trans jobReports
    have messages := (congrArg Side.queue side :).symm.trans queue
    refine ⟨controller.trans (by rw [jobs]), side.trans (onWay.side.trans (by rw [messages])), link
      , fun off => reporter.trans (onWay.off off), fun isOn => ⟨s.closedFigures lineFirst, gathers, goesOn
      , fun busy => reporter.trans (onWay.busy isOn busy), fun free none => reporter.trans (onWay.begins isOn free none)⟩⟩

end Sys2Proof.Machine

/-! PROOFS. The program entry: its live and fixed parts, the checks of a start, the handing of a parity pair (01, 1.1). -/

namespace Sys2Proof.Machine

/-! ### The live part -/

theorem modeOf_eq (n : Nat) : modeOf n = if n = 1 then .run else if n = 2 then .abort else .off := by
  match n with
  | 0 => rfl
  | 1 => rfl
  | 2 => rfl
  | n + 3 => rw [if_neg (by omega), if_neg (by omega)]; rfl

theorem targetOf_eq (n : Nat) : targetOf n = if n = 1 then some .even else if n = 2 then some .odd else none := by
  match n with
  | 0 => rfl
  | 1 => rfl
  | 2 => rfl
  | n + 3 => rw [if_neg (by omega), if_neg (by omega)]; rfl

theorem raised_eq (n : Nat) : (if n = 0 then 1 else n) = Nat.max 1 n := by
  show _ = max 1 n
  split <;> omega

theorem clampWeight_eq (w : Nat) : clampWeight w = Nat.min 16 (Nat.max 1 w) := by
  show _ = min 16 (max 1 w)
  unfold clampWeight
  split
  · omega
  · split <;> omega

theorem clampMax_eq (cpi n : Nat) : clampMax cpi n = Nat.min cpi (Nat.max 1 n) := by
  rw [clampMax, raised_eq]
  exact Nat.min_comm _ _

theorem clampMin_eq (top n : Nat) : clampMin top n = Nat.min top (Nat.max 1 n) := by
  rw [clampMin, raised_eq]
  exact Nat.min_comm _ _

theorem liveClamped_eq_false (cpi : Nat) (data : List Byte) : liveClamped cpi data = false ↔
    leNat data 0 1 ≤ 2 ∧ leNat data 2 1 ≤ 1 ∧ leNat data 3 1 ≤ 2 ∧ (readLive cpi data).weight = leNat data 1 1 ∧
      (readLive cpi data).min = leNat data 4 2 ∧ (readLive cpi data).max = leNat data 6 2 := by
  simp only [liveClamped, Bool.or_eq_false_iff, decide_eq_false_iff_not, Nat.not_lt, bne_eq_false_iff_eq]
  tauto

/-! ### The fixed part and the checks of a start -/

/-- R4: of a list of checks the first one that fails gives the code. -/
def FirstFailing (checks : List (Prop × StartRefusal)) (result : StartRefusal) : Prop :=
  ∀ before holds code after, checks = before ++ (holds, code) :: after → (∀ x ∈ before, x.1) → ¬ holds → result = code

theorem FirstFailing.nil (result : StartRefusal) : FirstFailing [] result := by
  intro before holds code after split_ _ _
  cases before with
  | nil => cases split_
  | cons x before => cases split_

theorem FirstFailing.cons {check fails : Prop} [Decidable fails] {code result : StartRefusal}
    {checks : List (Prop × StartRefusal)} (first : fails ↔ ¬ check) (rest : FirstFailing checks result) :
    FirstFailing ((check, code) :: checks) (if fails then code else result) := by
  intro before holds other after split_ passed broken
  cases before with
  | nil =>
    cases split_
    exact if_pos (first.2 broken)
  | cons x before =>
    obtain ⟨rfl, behind⟩ := List.cons.inj split_
    rw [if_neg fun fails => (first.1 fails) (passed _ List.mem_cons_self)]
    exact rest before holds other after behind (fun y mem => passed y (List.mem_cons_of_mem _ mem)) broken

theorem refusal_eq_none {fails : Prop} [Decidable fails] {code result : StartRefusal} (refuses : code ≠ .none) :
    (if fails then code else result) = .none ↔ ¬ fails ∧ result = .none := by
  by_cases h : fails
  · simp [h, refuses]
  · simp [h]

theorem readFixed_address (data : List Byte) (off : Nat) :
    (BitVec.ofNat 64 (leNat data off 8)).toNat = leNat data off 8 := toNat_ofNat_leNat rfl data off

theorem not_aligned_field (data : List Byte) (off : Nat) :
    (!alignedAddress (BitVec.ofNat 64 (leNat data off 8))) = true ↔ ¬ (leNat data off 8 ≠ 0 ∧ leNat data off 8 % 8 = 0) := by
  have zero : BitVec.ofNat 64 (leNat data off 8) = 0 ↔ leNat data off 8 = 0 := by
    rw [← BitVec.toNat_inj, readFixed_address]
    rfl
  rw [not_alignedAddress_iff, readFixed_address, zero, not_and_or, not_not]

theorem fixedRefusal_firstFailing (data : List Byte) : FirstFailing
    [(leNat data 0x14 1 ≤ 15, .accessKey), (leNat data 0x00 8 ≠ 0 ∧ leNat data 0x00 8 % 8 = 0, .chainAddress)
     , (1 ≤ leNat data 0x15 1 ∧ leNat data 0x15 1 ≤ 4, .depth)
     , (65536 ≤ leNat data 0x10 4 ∧ leNat data 0x10 4 ≤ 8388608, .bufferSize)
     , (1 ≤ leNat data 0x16 1 ∧ leNat data 0x16 1 ≤ 8, .decodeDelay), (leNat data 0x17 1 ≤ 1, .scrambleMode)
     , (leNat data 0x18 1 ≤ 1, .faultMode), (leNat data 0x08 8 ≠ 0 ∧ leNat data 0x08 8 % 8 = 0, .faultArea)]
    (fixedRefusal data) :=
  .cons (by rw [leNat_one, Nat.not_le]; rfl) <| .cons (not_aligned_field data 0x00) <| .cons Iff.rfl <| .cons Iff.rfl <|
    .cons Iff.rfl <| .cons Nat.not_le.symm <| .cons Nat.not_le.symm <| .cons (not_aligned_field data 0x08) <| .nil _

theorem fixedRefusal_eq_none (data : List Byte) : fixedRefusal data = .none ↔
    (readFixed data).accessKey.toNat ≤ 15 ∧ (readFixed data).chainStart ≠ 0 ∧ (readFixed data).chainStart.toNat % 8 = 0 ∧
      1 ≤ (readFixed data).depth ∧ (readFixed data).depth ≤ 4 ∧ 65536 ≤ (readFixed data).bufferSize ∧
      (readFixed data).bufferSize ≤ 8388608 ∧ 1 ≤ (readFixed data).delay ∧ (readFixed data).delay ≤ 8 ∧
      leNat data 0x17 1 ≤ 1 ∧ leNat data 0x18 1 ≤ 1 ∧ (readFixed data).faultArea ≠ 0 ∧
      (readFixed data).faultArea.toNat % 8 = 0 := by
  have aligned : ∀ a : Long, ¬ (!alignedAddress a) = true ↔ a ≠ 0 ∧ a.toNat % 8 = 0 := fun a => by
    rw [not_alignedAddress_iff, not_or, not_not]
  rw [fixedRefusal]
  rw [refusal_eq_none (code := .accessKey) nofun, refusal_eq_none (code := .chainAddress) nofun,
    refusal_eq_none (code := .depth) nofun, refusal_eq_none (code := .bufferSize) nofun,
    refusal_eq_none (code := .decodeDelay) nofun, refusal_eq_none (code := .scrambleMode) nofun,
    refusal_eq_none (code := .faultMode) nofun, refusal_eq_none (code := .faultArea) nofun, aligned, aligned]
  simp only [not_not, Nat.not_lt, and_true, and_assoc]

/-! ### The parity pair and the start -/

section

variable {s : State} {p : Program}

theorem State.handPair_hands {l : Live} {target : Parity} (live : (s.ctx p).live = some l) (hasTarget : l.target = some target)
    (scrambled : (s.ctx p).fixed.scrambled = true) (on : (s.ctx p).state ≠ .off)
    (new : (some target, l.interval) ≠ (s.ctx p).lastPair) :
    s.handPair p = { s with
      controller := { s.controller with
        programs := s.controller.programs.modify p fun c => { c with lastPair := (some target, l.interval) } }
      keys := { s.keys with records := s.keys.records.modify p fun x => x.handed target l.interval } } := by
  unfold State.handPair
  simp only [live, hasTarget]
  rw [if_pos ⟨scrambled, on, new⟩]
  rfl

theorem State.handPair_stays (h : (s.ctx p).live = none ∨
    (∃ l, (s.ctx p).live = some l ∧ (l.target = none ∨ (l.target, l.interval) = (s.ctx p).lastPair)) ∨
      (s.ctx p).fixed.scrambled = false ∨ (s.ctx p).state = .off) : s.handPair p = s := by
  unfold State.handPair
  dsimp only
  split
  · rfl
  next l live =>
    split
    · rfl
    next target hasTarget =>
      refine if_neg fun ⟨scrambled, on, new⟩ => ?_
      obtain unread | ⟨k, same, noTarget | known⟩ | clear | off := h
      · rw [live] at unread; cases unread
      · rw [live] at same; cases same; rw [hasTarget] at noTarget; cases noTarget
      · rw [live] at same; cases same; rw [hasTarget] at known; exact new known
      · rw [scrambled] at clear; cases clear
      · exact on off

/-- R2: the handing of a pair leaves the intake and, of the contexts, all but the pair kept. -/
theorem State.handPair_frame (s : State) (p : Program) : (s.handPair p).controller.intake = s.controller.intake ∧
    ∀ q, ∃ pair, (s.handPair p).ctx q = { s.ctx q with lastPair := pair } := by
  unfold State.handPair
  dsimp only
  split
  · exact ⟨rfl, fun q => ⟨_, rfl⟩⟩
  · split
    · exact ⟨rfl, fun q => ⟨_, rfl⟩⟩
    · split
      · refine ⟨rfl, fun q => ?_⟩
        have kept := s.ctx_modCtx p q
        by_cases same : p = q
        · exact ⟨_, (kept _).trans (if_pos same)⟩
        · exact ⟨_, (kept _).trans (if_neg same)⟩
      · exact ⟨rfl, fun q => ⟨_, rfl⟩⟩

/-- R5: what a start sets. -/
theorem State.startProgram_values (s : State) (p : Program) (f : Fixed) :
    (s.startProgram p f).ctx p = { s.ctx p with
      state := .priming, fixed := f, nextRecord := f.chainStart
      window := { head := 0, count := 0, slots := (s.ctx p).window.slots }, lastPair := (none, 0), lastOutcome := none
      lastInterval := 0, refused := .none } ∧
    ∀ q, q ≠ p → (s.startProgram p f).ctx q = s.ctx q :=
  ⟨s.ctx_modCtx_same p _, fun q ne => s.ctx_modCtx_ne ne _⟩

end

end Sys2Proof.Machine

/-! PROOFS. The arithmetic of an allocation: bounds, minima, water-fill and hand-out (O42; 03, 3.2). -/

namespace Sys2Proof.Machine

/-! ### What the division of the pool leaves of the shares -/

/-- The coder, the lower bound and the headroom of a share, which the division leaves. -/
def Share.bounds (x : Share) : Coder × Nat × Nat := (x.coder, x.lo, x.headroom)

theorem Share.pour_bounds (rest demand : Nat) (x : Share) : (x.pour rest demand).bounds = x.bounds := by
  unfold Share.pour
  dsimp only
  split
  · rfl
  · split
    · rfl
    · rfl

theorem pourAll_bounds (remainder : Nat) (shares : List Share) :
    (pourAll remainder shares).map Share.bounds = shares.map Share.bounds := by
  rw [pourAll, List.map_map]
  exact List.map_congr_left fun x _ => Share.pour_bounds _ _ x

theorem waterFill_bounds (remainder : Nat) : ∀ (fuel : Nat) (shares : List Share),
    (waterFill remainder fuel shares).map Share.bounds = shares.map Share.bounds
  | 0, _ => rfl
  | fuel + 1, shares => by
    unfold waterFill
    dsimp only
    split
    · exact pourAll_bounds remainder shares
    · exact (waterFill_bounds remainder fuel _).trans (pourAll_bounds remainder shares)

/-- R55: what a visit can do: nothing, or one cell for a share of the program that is below its headroom. -/
theorem giveCell_cases (p : Program) (shares : List Share) (left : Nat) :
    giveCell p shares left = (shares, left) ∨
      ∃ before x after, shares = before ++ x :: after ∧ x.extra < x.headroom ∧ 0 < left ∧
        giveCell p shares left = (before ++ { x with extra := x.extra + 1 } :: after, left - 1) := by
  induction shares with
  | nil => exact .inl rfl
  | cons x rest ih =>
    by_cases own : x.coder.program = p
    · by_cases room : x.extra < x.headroom ∧ 0 < left
      · exact .inr ⟨[], x, rest, rfl, room.1, room.2, by simp [giveCell, own, room]⟩
      · exact .inl (by simp only [giveCell, own, if_true, if_neg room])
    · obtain same | ⟨before, y, after, rfl, room, some_, gives⟩ := ih
      · exact .inl (by simp only [giveCell, own, if_false, same])
      · exact .inr ⟨x :: before, y, after, rfl, room, some_, by simp only [giveCell, own, if_false, gives, List.cons_append]⟩

/-- R53 to R55: shares within their headrooms. -/
def WithinHeadroom (shares : List Share) : Prop := ∀ x ∈ shares, x.extra ≤ x.headroom

/-- R55: from one division of the leftover to another, cells have moved from the leftover to the shares. -/
structure HandsOut (a b : List Share × Nat) : Prop where
  bounds : b.1.map Share.bounds = a.1.map Share.bounds
  sum : extras b.1 + b.2 = extras a.1 + a.2
  left : b.2 ≤ a.2
  stays : b.2 = a.2 → b = a
  within : WithinHeadroom a.1 → WithinHeadroom b.1

theorem HandsOut.refl (a : List Share × Nat) : HandsOut a a := ⟨rfl, rfl, le_rfl, fun _ => rfl, id⟩

theorem HandsOut.trans {a b c : List Share × Nat} (h : HandsOut a b) (k : HandsOut b c) : HandsOut a c where
  bounds := k.bounds.trans h.bounds
  sum := k.sum.trans h.sum
  left := k.left.trans h.left
  stays same := by
    have first : b.2 = a.2 := Nat.le_antisymm h.left (same ▸ k.left)
    rw [k.stays (same.trans first.symm), h.stays first]
  within := k.within ∘ h.within

theorem giveCell_handsOut (p : Program) (a : List Share × Nat) : HandsOut a (giveCell p a.1 a.2) := by
  obtain ⟨shares, left⟩ := a
  obtain same | ⟨before, x, after, rfl, room, some_, gives⟩ := giveCell_cases p shares left
  · rw [same]
    exact .refl _
  · rw [gives]
    refine ⟨by simp [Share.bounds], ?_, Nat.sub_le _ _, fun same => ?_, fun within y mem => ?_⟩
    · simp only [extras, List.map_append, List.map_cons, List.sum_append, List.sum_cons]
      omega
    · dsimp only at same
      omega
    · dsimp only at mem
      rw [List.mem_append, List.mem_cons] at mem
      obtain early | rfl | late := mem
      · exact within y (List.mem_append_left _ early)
      · exact room
      · exact within y (List.mem_append_right _ (List.mem_cons_of_mem _ late))

theorem handRound_handsOut (order : List Program) (a : List Share × Nat) : HandsOut a (handRound order a.1 a.2) := by
  induction order generalizing a with
  | nil => exact .refl a
  | cons p order ih => exact (giveCell_handsOut p a).trans (ih (giveCell p a.1 a.2))

theorem handOut_handsOut (order : List Program) : ∀ (fuel : Nat) (a : List Share × Nat), HandsOut a (handOut order fuel a.1 a.2)
  | 0, a => .refl a
  | fuel + 1, a => by
    have round := handRound_handsOut order a
    unfold handOut
    dsimp only
    split
    · exact round
    · exact round.trans (handOut_handsOut order fuel _)

/-! ### The rounds of the hand-out -/

theorem giveCell_own {p : Program} {shares : List Share} {left : Nat} (distinct : (shares.map fun x => x.coder.program).Nodup)
    {x : Share} (mem : x ∈ shares) (own : x.coder.program = p) (room : x.extra < x.headroom) (some_ : 0 < left) :
    giveCell p shares left =
      (shares.map (fun y => if y.coder.program = p then { y with extra := y.extra + 1 } else y), left - 1) := by
  induction shares with
  | nil => cases mem
  | cons y rest ih =>
    rw [List.map_cons, List.nodup_cons] at distinct
    obtain ⟨first, others⟩ := distinct
    by_cases same : y.coder.program = p
    · have alone : ∀ z ∈ rest, z.coder.program ≠ p := fun z hz e => first (List.mem_map.2 ⟨z, hz, e.trans same.symm⟩)
      have isFirst : x = y := by
        obtain rfl | behind := List.mem_cons.1 mem
        · rfl
        · exact absurd own (alone x behind)
      subst isFirst
      have kept : rest.map (fun y => if y.coder.program = p then { y with extra := y.extra + 1 } else y) = rest := by
        conv_rhs => rw [← List.map_id rest]
        exact List.map_congr_left fun z hz => if_neg (alone z hz)
      simp only [giveCell, same, if_true, room, some_, and_self, List.map_cons, kept]
    · have behind : x ∈ rest := by
        obtain rfl | behind := List.mem_cons.1 mem
        · exact absurd own same
        · exact behind
      simp only [giveCell, same, if_false, ih others behind, List.map_cons]

theorem giveCell_none {p : Program} {shares : List Share} {left : Nat}
    (h : (∀ x ∈ shares, x.coder.program = p → x.headroom ≤ x.extra) ∨ left = 0) : giveCell p shares left = (shares, left) := by
  induction shares with
  | nil => rfl
  | cons y rest ih =>
    have behind := ih (h.imp_left fun full x mem => full x (List.mem_cons_of_mem _ mem))
    by_cases same : y.coder.program = p
    · have none : ¬ (y.extra < y.headroom ∧ 0 < left) := by
        obtain full | empty := h
        · exact fun both => Nat.not_lt.2 (full y List.mem_cons_self same) both.1
        · omega
      simp only [giveCell, same, if_true, if_neg none]
    · simp only [giveCell, same, if_false, behind]

/-- One round of visits. -/
def handStep (order : List Program) (a : List Share × Nat) : List Share × Nat :=
  order.foldl (fun b p => giveCell p b.1 b.2) a

theorem handStep_empty (order : List Program) (shares : List Share) : handStep order (shares, 0) = (shares, 0) := by
  induction order with
  | nil => rfl
  | cons p order ih =>
    rw [handStep, List.foldl_cons, giveCell_none (.inr rfl)]
    exact ih

theorem handOut_rounds (order : List Program) : ∀ (fuel : Nat) (a : List Share × Nat), a.2 ≤ fuel →
    ∃ n, handOut order fuel a.1 a.2 = (handStep order)^[n] a ∧
      (handStep order)^[n + 1] a = (handStep order)^[n] a ∧
      ∀ m < n, ((handStep order)^[m + 1] a).2 < ((handStep order)^[m] a).2
  | 0, (shares, left), bound => by
    obtain rfl : left = 0 := Nat.le_zero.1 bound
    exact ⟨0, rfl, handStep_empty order shares, fun m h => absurd h (Nat.not_lt_zero m)⟩
  | fuel + 1, a, bound => by
    have round : HandsOut a (handStep order a) := handRound_handsOut order a
    have unfold_ : handOut order (fuel + 1) a.1 a.2 =
        if (handStep order a).2 = a.2 then handStep order a
        else handOut order fuel (handStep order a).1 (handStep order a).2 := rfl
    rw [unfold_]
    by_cases same : (handStep order a).2 = a.2
    · rw [if_pos same]
      have fixed_ := round.stays same
      exact ⟨0, fixed_, fixed_, fun m h => absurd h (Nat.not_lt_zero m)⟩
    · rw [if_neg same]
      have less : (handStep order a).2 < a.2 := Nat.lt_of_le_of_ne round.left same
      obtain ⟨n, reached, still, gives⟩ := handOut_rounds order fuel (handStep order a) (by omega)
      refine ⟨n + 1, reached, still, fun m h => ?_⟩
      cases m with
      | zero => exact less
      | succ m => exact gives m (Nat.succ_lt_succ_iff.1 h)

/-- R55: cells are left only where every share has reached its headroom. -/
theorem handStep_full {order : List Program} {a : List Share × Nat} (distinct : (a.1.map fun x => x.coder.program).Nodup)
    (still : handStep order a = a) (some_ : 0 < a.2) {x : Share} (mem : x ∈ a.1) (visited : x.coder.program ∈ order) :
    x.headroom ≤ x.extra := by
  obtain ⟨before, after, rfl⟩ := List.append_of_mem visited
  by_contra room
  have first : HandsOut a (handStep before a) := handRound_handsOut before a
  have visit := giveCell_handsOut x.coder.program (handStep before a)
  have rest : HandsOut (giveCell x.coder.program (handStep before a).1 (handStep before a).2) a := by
    have last := handRound_handsOut after (giveCell x.coder.program (handStep before a).1 (handStep before a).2)
    have whole : handRound after (giveCell x.coder.program (handStep before a).1 (handStep before a).2).1
        (giveCell x.coder.program (handStep before a).1 (handStep before a).2).2 = a := by
      rw [handStep, List.foldl_append] at still
      exact still
    rwa [whole] at last
  have unchanged : handStep before a = a := first.stays (Nat.le_antisymm first.left ((visit.trans rest).left))
  rw [unchanged] at visit rest
  have none : (giveCell x.coder.program a.1 a.2).2 = a.2 := Nat.le_antisymm visit.left rest.left
  rw [giveCell_own distinct mem rfl (Nat.not_le.1 room) some_] at none
  dsimp only at none
  omega

/-! ### The passes of the water-fill -/

theorem waterFill_passes (remainder : Nat) : ∀ (fuel : Nat) (shares : List Share), 1 ≤ fuel →
    let pins := fun n => (((pourAll remainder)^[n] shares).filter Share.pinned).length
    ∃ n, 1 ≤ n ∧ n ≤ fuel ∧ waterFill remainder fuel shares = (pourAll remainder)^[n] shares ∧
      (∀ m < n - 1, pins (m + 1) ≠ pins m) ∧ (n < fuel → pins n = pins (n - 1))
  | 0, _, h => absurd h (Nat.not_succ_le_zero 0)
  | fuel + 1, shares, _ => by
    intro pins
    have unfold_ : waterFill remainder (fuel + 1) shares =
        if pins 1 = pins 0 then pourAll remainder shares else waterFill remainder fuel (pourAll remainder shares) := rfl
    rw [unfold_]
    by_cases same : pins 1 = pins 0
    · rw [if_pos same]
      exact ⟨1, le_rfl, by omega, rfl, fun m h => absurd h (Nat.not_lt_zero m), fun _ => same⟩
    · rw [if_neg same]
      cases fuel with
      | zero => exact ⟨1, le_rfl, le_rfl, rfl, fun m h => absurd h (Nat.not_lt_zero m), fun h => absurd h (Nat.lt_irrefl 1)⟩
      | succ fuel =>
        obtain ⟨n, first, bound, filled, more, stop⟩ := waterFill_passes remainder (fuel + 1) (pourAll remainder shares) (by omega)
        refine ⟨n + 1, by omega, by omega, filled, fun m h => ?_, fun h => ?_⟩
        · cases m with
          | zero => exact same
          | succ m => exact more m (by omega)
        · obtain ⟨k, rfl⟩ := Nat.exists_eq_add_of_le' first
          exact stop (by omega)

theorem pourAll_getElem? (remainder : Nat) (shares : List Share) {i : Nat} {x : Share} (found : shares[i]? = some x) :
    (pourAll remainder shares)[i]? = some (x.pour (remainder - pinnedHeadroom shares) (openDemand shares)) := by
  rw [pourAll, List.getElem?_map, found]
  rfl

theorem Share.pour_pinned {x : Share} (pinned : x.pinned = true) (rest demand : Nat) : x.pour rest demand = x :=
  if_pos pinned

theorem Share.pour_open {x : Share} (open_ : x.pinned = false) (rest demand : Nat) :
    x.pour rest demand =
      if x.headroom < rest * x.coder.demand / demand then { x with extra := x.headroom, pinned := true }
      else { x with extra := rest * x.coder.demand / demand } := if_neg (by simp [open_])

/-- R53: what holds between the passes: no share above its headroom, pinned ones at it, and the extras within the remainder. -/
structure Filled (remainder : Nat) (shares : List Share) : Prop where
  within : WithinHeadroom shares
  pinned : ∀ x ∈ shares, x.pinned = true → x.extra = x.headroom
  sum : extras shares ≤ remainder

theorem pinnedHeadroom_le {remainder : Nat} {shares : List Share} (h : Filled remainder shares) :
    pinnedHeadroom shares ≤ remainder := by
  refine le_trans ?_ h.sum
  have same : (shares.filter Share.pinned).map Share.headroom = (shares.filter Share.pinned).map Share.extra :=
    List.map_congr_left fun x mem => (h.pinned x (List.mem_of_mem_filter mem) (List.of_mem_filter mem)).symm
  rw [pinnedHeadroom, same, extras]
  exact (List.filter_sublist.map _).sum_le_sum fun _ _ => Nat.zero_le _

/-- R53: the offers of a pass to some shares, and the headrooms of the pinned ones, keep within what is there for them. -/
theorem extras_pour_le (rest demand : Nat) (shares : List Share) (pinned : ∀ x ∈ shares, x.pinned = true → x.extra = x.headroom) :
    extras (shares.map (Share.pour rest demand)) ≤ pinnedHeadroom shares + rest * openDemand shares / demand := by
  induction shares with
  | nil => exact Nat.zero_le _
  | cons x shares ih =>
    have tail := ih fun y mem => pinned y (List.mem_cons_of_mem _ mem)
    rw [List.map_cons, extras, List.map_cons, List.sum_cons, ← extras]
    by_cases isPinned : x.pinned = true
    · have headroom : pinnedHeadroom (x :: shares) = x.headroom + pinnedHeadroom shares := by
        rw [pinnedHeadroom, List.filter_cons_of_pos isPinned, List.map_cons, List.sum_cons, pinnedHeadroom]
      have demands : openDemand (x :: shares) = openDemand shares := by
        rw [openDemand, List.filter_cons_of_neg (by simp [isPinned]), openDemand]
      rw [Share.pour_pinned isPinned, pinned x List.mem_cons_self isPinned, headroom, demands]
      omega
    · have headroom : pinnedHeadroom (x :: shares) = pinnedHeadroom shares := by
        rw [pinnedHeadroom, List.filter_cons_of_neg isPinned, pinnedHeadroom]
      have demands : openDemand (x :: shares) = x.coder.demand + openDemand shares := by
        rw [openDemand, List.filter_cons_of_pos (by simp [isPinned]), List.map_cons, List.sum_cons, openDemand]
      have offer : (x.pour rest demand).extra ≤ rest * x.coder.demand / demand := by
        rw [Share.pour_open (by simpa using isPinned)]
        split
        next less => exact Nat.le_of_lt less
        next => exact le_rfl
      have both : rest * x.coder.demand / demand + rest * openDemand shares / demand ≤
          rest * (x.coder.demand + openDemand shares) / demand := by
        rw [Nat.mul_add]
        exact Nat.div_add_div_le_add_div
      rw [headroom, demands]
      omega

theorem Filled.pourAll {remainder : Nat} {shares : List Share} (h : Filled remainder shares) :
    Filled remainder (pourAll remainder shares) where
  within := by
    intro y mem
    obtain ⟨x, among, rfl⟩ := List.mem_map.1 mem
    by_cases isPinned : x.pinned = true
    · rw [Share.pour_pinned isPinned]
      exact h.within x among
    · rw [Share.pour_open (by simpa using isPinned)]
      split
      next => exact le_rfl
      next less => exact Nat.not_lt.1 less
  pinned := by
    intro y mem pinned
    obtain ⟨x, among, rfl⟩ := List.mem_map.1 mem
    by_cases isPinned : x.pinned = true
    · rw [Share.pour_pinned isPinned]
      exact h.pinned x among isPinned
    · rw [Share.pour_open (by simpa using isPinned)] at pinned ⊢
      split at pinned
      next less => rw [if_pos less]
      next less => exact absurd pinned isPinned
  sum := by
    have most := extras_pour_le (remainder - pinnedHeadroom shares) (openDemand shares) shares h.pinned
    have all := pinnedHeadroom_le h
    have share : (remainder - pinnedHeadroom shares) * openDemand shares / openDemand shares ≤ remainder - pinnedHeadroom shares :=
      Nat.div_le_of_le_mul (Nat.mul_comm _ _).le
    exact most.trans (by omega)

theorem Filled.waterFill {remainder : Nat} : ∀ (fuel : Nat) {shares : List Share}, Filled remainder shares →
    Filled remainder (waterFill remainder fuel shares)
  | 0, _, h => h
  | fuel + 1, shares, h => by
    unfold Machine.waterFill
    dsimp only
    split
    · exact h.pourAll
    · exact Filled.waterFill fuel h.pourAll

/-! ### The bounds and the minima -/

theorem Coder.one_le_hi (c : Coder) : 1 ≤ c.hi := Nat.le_max_left _ _

theorem Coder.lo_le_hi (c : Coder) : c.lo ≤ c.hi := Nat.min_le_right _ _

theorem Coder.one_le_lo {c : Coder} (h : 1 ≤ c.min) : 1 ≤ c.lo := Nat.le_min.2 ⟨h, c.one_le_hi⟩

theorem initialShares_scaled {pool : Nat} {coders : List Coder} (h : pool < (coders.map Coder.lo).sum) :
    initialShares pool coders = (coders.map fun c =>
      { coder := c, lo := scaledLo pool coders.length (coders.map Coder.lo).sum c.lo
        headroom := c.hi - scaledLo pool coders.length (coders.map Coder.lo).sum c.lo, extra := 0, pinned := false }, true) :=
  if_pos h

theorem initialShares_unscaled {pool : Nat} {coders : List Coder} (h : (coders.map Coder.lo).sum ≤ pool) :
    initialShares pool coders = (coders.map fun c =>
      { coder := c, lo := c.lo, headroom := c.hi - c.lo, extra := 0, pinned := false }, false) :=
  if_neg (Nat.not_lt.2 h)

theorem initialShares_coders (pool : Nat) (coders : List Coder) : (initialShares pool coders).1.map Share.coder = coders := by
  by_cases h : pool < (coders.map Coder.lo).sum
  · rw [initialShares_scaled h, List.map_map]
    exact List.map_id _
  · rw [initialShares_unscaled (Nat.not_lt.1 h), List.map_map]
    exact List.map_id _

/-- R52: scaled minima together are at most what their scale gives. -/
theorem sum_scaled_le (k t : Nat) (los : List Nat) (positive : ∀ lo ∈ los, 1 ≤ lo) :
    (los.map fun lo => 1 + (lo - 1) * k / t).sum ≤ los.length + (los.sum - los.length) * k / t ∧ los.length ≤ los.sum := by
  induction los with
  | nil => exact ⟨Nat.zero_le _, le_rfl⟩
  | cons lo los ih =>
    obtain ⟨tail, count⟩ := ih fun x mem => positive x (List.mem_cons_of_mem _ mem)
    have one := positive lo List.mem_cons_self
    simp only [List.map_cons, List.sum_cons, List.length_cons]
    have both : (lo - 1) * k / t + (los.sum - los.length) * k / t ≤ ((lo - 1) * k + (los.sum - los.length) * k) / t :=
      Nat.div_add_div_le_add_div
    rw [← Nat.add_mul] at both
    have total : lo - 1 + (los.sum - los.length) = lo + los.sum - (los.length + 1) := by omega
    rw [total] at both
    omega

section

variable {pool : Nat} {coders : List Coder}

/-- R51, R52: what an initial share is. -/
theorem mem_initialShares {x : Share} (mem : x ∈ (initialShares pool coders).1) :
    x.coder ∈ coders ∧ x.extra = 0 ∧ x.pinned = false ∧ x.headroom = x.coder.hi - x.lo ∧
      ((coders.map Coder.lo).sum ≤ pool → x.lo = x.coder.lo) ∧
      (pool < (coders.map Coder.lo).sum → x.lo =
        1 + (x.coder.lo - 1) * (pool - coders.length) / ((coders.map Coder.lo).sum - coders.length)) := by
  by_cases h : pool < (coders.map Coder.lo).sum
  · rw [initialShares_scaled h] at mem
    obtain ⟨c, among, rfl⟩ := List.mem_map.1 mem
    exact ⟨among, rfl, rfl, rfl, fun room => absurd h (Nat.not_lt.2 room), fun _ => rfl⟩
  · rw [initialShares_unscaled (Nat.not_lt.1 h)] at mem
    obtain ⟨c, among, rfl⟩ := List.mem_map.1 mem
    exact ⟨among, rfl, rfl, rfl, fun _ => rfl, fun short => absurd short h⟩

variable (room : coders.length ≤ pool) (minima : ∀ c ∈ coders, 1 ≤ c.min)

include room minima

/-- R51, R52: the lower bound of a share lies between 1 and its coder's own. -/
theorem initialShares_lo {x : Share} (mem : x ∈ (initialShares pool coders).1) : 1 ≤ x.lo ∧ x.lo ≤ x.coder.lo := by
  obtain ⟨among, -, -, -, unscaled, scaled⟩ := mem_initialShares mem
  have one := Coder.one_le_lo (minima x.coder among)
  by_cases h : pool < (coders.map Coder.lo).sum
  · rw [scaled h]
    have part : (x.coder.lo - 1) * (pool - coders.length) / ((coders.map Coder.lo).sum - coders.length) ≤ x.coder.lo - 1 :=
      Nat.div_le_of_le_mul (by
        rw [Nat.mul_comm]
        exact Nat.mul_le_mul_right _ (by omega))
    exact ⟨Nat.le_add_right _ _, (Nat.add_le_add_left part 1).trans (by omega)⟩
  · rw [unscaled (Nat.not_lt.1 h)]
    exact ⟨one, le_rfl⟩

/-- R52: the lower bounds fit the pool. -/
theorem initialShares_lo_sum : ((initialShares pool coders).1.map Share.lo).sum ≤ pool := by
  by_cases h : pool < (coders.map Coder.lo).sum
  · rw [initialShares_scaled h, List.map_map]
    have positive : ∀ lo ∈ coders.map Coder.lo, 1 ≤ lo := by
      intro lo mem
      obtain ⟨c, among, rfl⟩ := List.mem_map.1 mem
      exact Coder.one_le_lo (minima c among)
    obtain ⟨most, count⟩ := sum_scaled_le (pool - coders.length) ((coders.map Coder.lo).sum - coders.length) _ positive
    rw [List.length_map, Nat.mul_div_cancel_left _ (by omega), List.map_map] at most
    exact most.trans (by omega)
  · rw [initialShares_unscaled (Nat.not_lt.1 h), List.map_map]
    exact Nat.not_lt.1 h

end

theorem initialShares_filled (remainder pool : Nat) (coders : List Coder) :
    Filled remainder (initialShares pool coders).1 where
  within x mem := by rw [(mem_initialShares mem).2.1]; exact Nat.zero_le _
  pinned x mem pinned := by rw [(mem_initialShares mem).2.2.1] at pinned; cases pinned
  sum := by
    have none : (initialShares pool coders).1.map Share.extra = (initialShares pool coders).1.map fun _ => 0 :=
      List.map_congr_left fun x mem => (mem_initialShares mem).2.1
    rw [extras, none, List.map_const', List.sum_replicate, smul_zero]
    exact Nat.zero_le _

/-! ### The division of the pool -/

/-- R53: what the lower bounds leave of the pool. -/
def remainderOf (pool : Nat) (coders : List Coder) : Nat := pool - ((initialShares pool coders).1.map Share.lo).sum

/-- R53, R54: the shares after the water-fill. -/
def filledShares (pool : Nat) (coders : List Coder) : List Share :=
  waterFill (remainderOf pool coders) 4 (initialShares pool coders).1

/-- R55: what the water-fill leaves of the remainder. -/
def leftoverOf (pool : Nat) (coders : List Coder) : Nat := remainderOf pool coders - extras (filledShares pool coders)

/-- R52 to R55: the shares and the leftover once the water-fill is done and the leftover handed out. -/
def finalShares (pool : Nat) (rotation : Fin 16) (coders : List Coder) : List Share × Nat :=
  handOut (visitOrder rotation) (leftoverOf pool coders) (filledShares pool coders) (leftoverOf pool coders)

theorem allocationOf_values (interval : Word) (cpi reserve debts : Nat) (rotation : Fin 16) (coders : List Coder)
    (holds : List Hold) (primed : List Program) :
    let a := allocationOf interval cpi reserve debts rotation coders holds primed
    a.interval = interval ∧ a.pool = cpi - reserve - debts - holds.length ∧ a.reserve = reserve ∧ a.holds = holds ∧
      a.primed = primed ∧ a.scaled = (initialShares a.pool coders).2 ∧ a.seed = (finalShares a.pool rotation coders).2 ∧
      a.grants = (finalShares a.pool rotation coders).1.map Share.grant :=
  ⟨rfl, rfl, rfl, rfl, rfl, rfl, rfl, rfl⟩

section

variable (pool : Nat) (rotation : Fin 16) (coders : List Coder)

theorem filledShares_filled : Filled (remainderOf pool coders) (filledShares pool coders) :=
  Filled.waterFill 4 (initialShares_filled _ pool coders)

theorem finalShares_handsOut :
    HandsOut (filledShares pool coders, leftoverOf pool coders) (finalShares pool rotation coders) :=
  handOut_handsOut (visitOrder rotation) (leftoverOf pool coders) (filledShares pool coders, leftoverOf pool coders)

theorem finalShares_bounds :
    (finalShares pool rotation coders).1.map Share.bounds = (initialShares pool coders).1.map Share.bounds :=
  (finalShares_handsOut pool rotation coders).bounds.trans (waterFill_bounds _ _ _)

theorem finalShares_coders : (finalShares pool rotation coders).1.map Share.coder = coders := by
  have same := congrArg (List.map Prod.fst) (finalShares_bounds pool rotation coders)
  rw [List.map_map, List.map_map] at same
  exact same.trans (initialShares_coders pool coders)

theorem finalShares_within : WithinHeadroom (finalShares pool rotation coders).1 :=
  (finalShares_handsOut pool rotation coders).within (filledShares_filled pool coders).within

/-- R55: the lower bounds, the extras and the seed make up the pool. -/
theorem finalShares_sum (fits : ((initialShares pool coders).1.map Share.lo).sum ≤ pool) :
    ((finalShares pool rotation coders).1.map Share.lo).sum + extras (finalShares pool rotation coders).1 +
      (finalShares pool rotation coders).2 = pool := by
  have lows : ((finalShares pool rotation coders).1.map Share.lo).sum = ((initialShares pool coders).1.map Share.lo).sum := by
    have same := congrArg (fun l => (l.map fun b : Coder × Nat × Nat => b.2.1).sum) (finalShares_bounds pool rotation coders)
    simp only [List.map_map] at same
    exact same
  have sum := (finalShares_handsOut pool rotation coders).sum
  have most := (filledShares_filled pool coders).sum
  rw [leftoverOf] at sum
  dsimp only at sum
  rw [Nat.add_sub_cancel' most, remainderOf] at sum
  omega

/-- R51 to R55: the bounds of a final share are those of an initial one. -/
theorem mem_finalShares {x : Share} (mem : x ∈ (finalShares pool rotation coders).1) :
    ∃ y ∈ (initialShares pool coders).1, x.coder = y.coder ∧ x.lo = y.lo ∧ x.headroom = y.headroom := by
  have among : x.bounds ∈ (initialShares pool coders).1.map Share.bounds :=
    finalShares_bounds pool rotation coders ▸ List.mem_map_of_mem mem
  obtain ⟨y, mem, same⟩ := List.mem_map.1 among
  obtain ⟨coder, rest⟩ := Prod.mk.inj same
  obtain ⟨lo, headroom⟩ := Prod.mk.inj rest
  exact ⟨y, mem, coder.symm, lo.symm, headroom.symm⟩

variable {pool rotation coders}

/-- R55: a seed is left only where every share has reached its headroom. -/
theorem finalShares_full (left : 0 < (finalShares pool rotation coders).2) (distinct : (coders.map Coder.program).Nodup)
    {x : Share} (mem : x ∈ (finalShares pool rotation coders).1) : x.extra = x.headroom := by
  obtain ⟨n, reached, still, -⟩ := handOut_rounds (visitOrder rotation) (leftoverOf pool coders)
    (filledShares pool coders, leftoverOf pool coders) le_rfl
  have final : finalShares pool rotation coders =
      (handStep (visitOrder rotation))^[n] (filledShares pool coders, leftoverOf pool coders) := reached
  have fixed_ : handStep (visitOrder rotation) (finalShares pool rotation coders) = finalShares pool rotation coders := by
    rw [Function.iterate_succ_apply', ← final] at still
    exact still
  have programs_ : ((finalShares pool rotation coders).1.map fun x => x.coder.program).Nodup := by
    have map : ((finalShares pool rotation coders).1.map fun x => x.coder.program) =
        ((finalShares pool rotation coders).1.map Share.coder).map Coder.program := by rw [List.map_map]; rfl
    rw [map, finalShares_coders]
    exact distinct
  have visited : x.coder.program ∈ visitOrder rotation := by
    rw [visitOrder, List.mem_map]
    exact ⟨x.coder.program - rotation, mem_programs _, by rw [add_sub_cancel]⟩
  exact Nat.le_antisymm (finalShares_within pool rotation coders x mem)
    (handStep_full programs_ fixed_ left mem visited)

end

/-! ### The groups and the start of an allocation -/

theorem groupOf_coding (state : ProgramState) (count depth : Nat) : groupOf state count depth = .coding ↔
    ((state = .priming ∨ state = .running) ∧ depth ≤ count) ∨ (state = .draining ∧ 1 ≤ count) := by
  cases state
  case priming => by_cases h : depth ≤ count <;> simp [groupOf, h]
  case running => by_cases h : depth ≤ count <;> simp [groupOf, h]
  case draining => by_cases h : 1 ≤ count <;> simp [groupOf, h]
  all_goals simp [groupOf]

theorem groupOf_hold (state : ProgramState) (count depth : Nat) : groupOf state count depth = .hold ↔
    (state = .running ∧ count < depth) ∨ state = .held := by
  cases state
  case priming => by_cases h : depth ≤ count <;> simp [groupOf, h]
  case running =>
    by_cases h : depth ≤ count
    · simp [groupOf, h]
    · simp [groupOf, h, Nat.not_le.1 h]
  case draining => by_cases h : 1 ≤ count <;> simp [groupOf, h]
  all_goals simp [groupOf]

section

variable (s : State) (p : Program)

theorem State.mem_codingPrograms : p ∈ s.codingPrograms ↔
    (((s.ctx p).state = .priming ∨ (s.ctx p).state = .running) ∧ (s.ctx p).fixed.depth ≤ (s.ctx p).window.count) ∨
      ((s.ctx p).state = .draining ∧ 1 ≤ (s.ctx p).window.count) := by
  rw [State.codingPrograms, List.mem_filter, decide_eq_true_eq, State.group, groupOf_coding]
  exact and_iff_right (mem_programs p)

theorem State.mem_holdGroup (starved : Bool) : { program := p, starved := starved } ∈ s.holdGroup ↔
    s.group p = .hold ∧ starved = decide ((s.ctx p).state = .running) := by
  rw [State.holdGroup, List.mem_map]
  constructor
  · rintro ⟨q, mem, same⟩
    cases same
    exact ⟨of_decide_eq_true (List.mem_filter.1 mem).2, rfl⟩
  · rintro ⟨group, rfl⟩
    exact ⟨p, List.mem_filter.2 ⟨mem_programs p, decide_eq_true group⟩, rfl⟩

theorem State.mem_primedPrograms : p ∈ s.primedPrograms ↔
    (s.ctx p).state = .priming ∧ (s.ctx p).fixed.depth ≤ (s.ctx p).window.count := by
  rw [State.primedPrograms, List.mem_filter, State.mem_codingPrograms, decide_eq_true_eq]
  constructor
  · rintro ⟨⟨-, deep⟩ | ⟨draining, -⟩, priming⟩
    · exact ⟨priming, deep⟩
    · rw [priming] at draining; cases draining
  · exact fun ⟨priming, deep⟩ => ⟨.inl ⟨.inl priming, deep⟩, priming⟩

theorem State.holdGroup_programs : s.holdGroup.map Hold.program = programs.filter fun p => s.group p = .hold := by
  rw [State.holdGroup, List.map_map]
  exact List.map_id _

end

/-- R1, R44: the conditions of the intake's end. -/
theorem State.intakeDone_of {s : State} {i : Intake} (running : s.timer.running = true) (intake : s.controller.intake = some i)
    (phase : i.phase = .allDone) (reports : s.controller.reports = []) (finish : ∀ p, (s.ctx p).finish = none) :
    s.intakeDone = true := by
  simp [State.intakeDone, running, intake, phase, reports, finish]

/-- R139: the join of the carried messages reads the contexts and the settings alone. -/
theorem State.joinFrom_congr {s t : State} (settings : t.settingsD = s.settingsD) (ctx : t.ctx = s.ctx) :
    ∀ (ps : List Program) (queue : List Message), t.joinFrom ps queue = s.joinFrom ps queue
  | [], _ => rfl
  | p :: ps, queue => by
    simp only [State.joinFrom, settings, ctx, State.joinFrom_congr settings ctx ps]

/-- R44: an allocation reads the settings, the contexts, the timer, the allocator and the side queue alone. -/
theorem State.allocate_congr {s t : State} (settings : t.settingsD = s.settingsD) (ctx : t.ctx = s.ctx)
    (timer : t.timer = s.timer) (allocator : t.allocator = s.allocator) (queue : t.side.queue = s.side.queue) :
    t.allocate = s.allocate := by
  have group : t.group = s.group := by
    funext p
    rw [State.group, State.group, ctx]
  have coding : t.codingPrograms = s.codingPrograms := by rw [State.codingPrograms, State.codingPrograms, group]
  have holds : t.holdGroup = s.holdGroup := by rw [State.holdGroup, State.holdGroup, group, ctx]
  have primed : t.primedPrograms = s.primedPrograms := by
    rw [State.primedPrograms, State.primedPrograms, coding, ctx]
  have coder : t.coder = s.coder := by
    funext p
    simp only [State.coder, ctx, settings, allocator]
  have reserve : t.reservationFor = s.reservationFor := by
    funext ps
    rw [State.reservationFor, State.reservationFor, State.joinFrom_congr settings ctx, settings, queue]
  have debt : t.totalDebt = s.totalDebt := by rw [State.totalDebt, State.totalDebt, allocator]
  rw [State.allocate, State.allocate, timer, settings, reserve, debt, allocator, coding, coder, holds, primed]

/-- R44: the end of the intake of the interval that is open puts its allocation in flight. -/
theorem exec_intakeComplete_current {s : State} {i : Intake} (done : s.intakeDone = true) (intake : s.controller.intake = some i)
    (current : i.interval = s.timer.number) :
    exec .intakeComplete s = .next { s with
      allocator := { s.allocator with inFlight := some s.allocate }
      controller := { s.controller with
        intake := none
        notes := PerProgram.tabulate fun p => (s.controller.notes.look p).join (s.controller.intakeNotes.look p)
        intakeNotes := PerProgram.fill Notes.clear } } := by
  change execIntakeComplete s = _
  rw [execIntakeComplete, intake]
  dsimp only
  have same : s.mergeIntakeNotes.allocate = s.allocate := State.allocate_congr rfl rfl rfl rfl rfl
  rw [if_pos done, if_pos current, same]
  rfl

/-! ### The budgets -/

section

variable {pool : Nat} {rotation : Fin 16} {coders : List Coder} (room : coders.length ≤ pool)
  (minima : ∀ c ∈ coders, 1 ≤ c.min)

include room minima

/-- R55, R56: the bounds of a budget, and the bound reached where a seed is left. -/
theorem finalShares_budget {x : Share} (mem : x ∈ (finalShares pool rotation coders).1) :
    1 ≤ x.lo + x.extra ∧ x.lo + x.extra ≤ x.coder.hi ∧
      (0 < (finalShares pool rotation coders).2 → (coders.map Coder.program).Nodup → x.lo + x.extra = x.coder.hi) := by
  obtain ⟨y, initial, coder, lo, headroom⟩ := mem_finalShares pool rotation coders mem
  obtain ⟨one, low⟩ := initialShares_lo room minima initial
  have span := (mem_initialShares initial).2.2.2.1
  have high := y.coder.lo_le_hi
  have within := finalShares_within pool rotation coders x mem
  rw [coder]
  refine ⟨by omega, by omega, fun left distinct => ?_⟩
  have full := finalShares_full left distinct mem
  omega

theorem finalShares_budgets_sum :
    ((finalShares pool rotation coders).1.map fun x => x.lo + x.extra).sum + (finalShares pool rotation coders).2 = pool := by
  rw [List.sum_map_add]
  exact finalShares_sum pool rotation coders (initialShares_lo_sum room minima)

end

/-- A grant beside its coder is that of one final share. -/
theorem mem_grants_zip {pool : Nat} {rotation : Fin 16} {coders : List Coder} {x : Grant × Coder}
    (mem : x ∈ ((finalShares pool rotation coders).1.map Share.grant).zip coders) :
    ∃ y ∈ (finalShares pool rotation coders).1, x = (y.grant, y.coder) := by
  have both : ((finalShares pool rotation coders).1.map Share.grant).zip ((finalShares pool rotation coders).1.map Share.coder) =
      (finalShares pool rotation coders).1.map fun y => (y.grant, y.coder) := List.zip_map'
  rw [finalShares_coders] at both
  rw [both] at mem
  obtain ⟨y, among, rfl⟩ := List.mem_map.1 mem
  exact ⟨y, among, rfl⟩

/-- Settles O42. -/
theorem budgetsAndSeedMakeUpThePool : Obligations.BudgetsAndSeedMakeUpThePool := by
  unfold Obligations.BudgetsAndSeedMakeUpThePool
  refine ⟨fun interval cpi reserve debts rotation coders holds primed => ?division, fun c => ⟨rfl, rfl, ?tight⟩
    , fun bufferSize delay delivered => ?room, fun pool coders => ?minima, fun remainder shares => ?pass
    , fun remainder shares => waterFill_passes remainder 4 shares (by decide), fun rotation => ?order
    , fun p shares left distinct => ⟨fun x mem own room some_ => giveCell_own distinct mem own room some_, giveCell_none⟩
    , fun order shares left => handOut_rounds order left (shares, left) le_rfl, fun s => ?groups
    , fun s i running intake phase current reports finish => ?starts⟩
  case division =>
    intro a initial remainder filled leftover final
    obtain ⟨number, pool, reserved, held, ready, scaled, seed, grants⟩ :=
      allocationOf_values interval cpi reserve debts rotation coders holds primed
    refine ⟨number, pool, reserved, held, ready, scaled, seed, grants, fun room minima => ⟨?_, fun x mem => ?_, ?_
      , fun left distinct x mem => ?_⟩⟩
    · have coded := congrArg (List.map Coder.program) (finalShares_coders a.pool rotation coders)
      rw [List.map_map] at coded
      rw [grants, List.map_map]
      exact coded
    · rw [grants] at mem
      obtain ⟨y, final, rfl⟩ := mem_grants_zip mem
      obtain ⟨one, high, -⟩ := finalShares_budget room minima final
      exact ⟨one, high, rfl⟩
    · rw [grants, List.map_map, seed]
      exact finalShares_budgets_sum room minima
    · rw [grants] at mem
      rw [seed] at left
      obtain ⟨y, final, rfl⟩ := mem_grants_zip mem
      exact (finalShares_budget room minima final).2.2 left distinct
  case tight => exact decide_eq_true_iff
  case room =>
    rw [roomOf, List.take_reverse, List.sum_reverse]
  case minima =>
    intro total shares
    refine ⟨?_, initialShares_coders pool coders, fun x mem => ?_⟩
    · by_cases h : pool < total
      · rw [initialShares_scaled h]
        exact iff_of_true rfl h
      · rw [initialShares_unscaled (Nat.not_lt.1 h)]
        exact iff_of_false Bool.false_ne_true h
    · exact (mem_initialShares mem).2
  case pass =>
    intro left demands
    refine ⟨List.length_map _, fun i x found => ⟨_, pourAll_getElem? remainder shares found, ?_⟩⟩
    intro offer
    refine ⟨fun pinned => Share.pour_pinned pinned _ _, fun open_ within => ?_, fun open_ above => ?_⟩
    · rw [Share.pour_open open_]
      exact if_neg (Nat.not_lt.2 within)
    · rw [Share.pour_open open_]
      exact if_pos above
  case order =>
    rw [visitOrder]
    rfl
  case groups =>
    refine ⟨programs_ascending.filter _, ?_, (programs_ascending.filter _).filter _, fun p => ?_⟩
    · rw [State.holdGroup_programs]
      exact programs_ascending.filter _
    · intro c
      have held := groupOf_hold c.state c.window.count c.fixed.depth
      refine ⟨s.mem_codingPrograms p, ?_, ?_, s.mem_primedPrograms p, fun l live => ?_⟩
      · rw [s.mem_holdGroup, State.group, held]
        constructor
        · rintro ⟨⟨running, shallow⟩ | held, isRunning⟩
          · exact ⟨running, shallow⟩
          · exact absurd (of_decide_eq_true isRunning.symm) (by rw [show (s.ctx p).state = .held from held]; decide)
        · exact fun ⟨running, shallow⟩ => ⟨.inl ⟨running, shallow⟩, (decide_eq_true running).symm⟩
      · rw [s.mem_holdGroup, State.group, held]
        constructor
        · rintro ⟨⟨running, -⟩ | held, notRunning⟩
          · exact absurd running (of_decide_eq_false notRunning.symm)
          · exact held
        · exact fun held => ⟨.inr held, (decide_eq_false (by rw [show (s.ctx p).state = .held from held]; decide)).symm⟩
      · rw [State.coder, show (s.ctx p).live = some l from live]
        cases kind : ((s.ctx p).window.named 0).kind with
        | key => simp only [c, kind, Settings.kindFactor, Option.getD_some]
        | pred => simp only [c, kind, Settings.kindFactor, Option.getD_some]
        | bi => simp only [c, kind, Settings.kindFactor, Option.getD_some]
  case starts =>
    exact ⟨_, exec_intakeComplete_current (State.intakeDone_of running intake phase reports finish) intake current, rfl⟩

end Sys2Proof.Machine

/-! PROOFS. The steps of an intake and its end (O41; 01, 1.1 and 1.2). -/

namespace Sys2Proof.Machine

section

variable {s : State} {i : Intake} (h : s.controller.intake = some i) (going : i.halted = false)

include h going

/-! ### From program to program -/

theorem State.nextProgram_next (more : i.program ≠ 15) : s.nextProgram =
    ({ s with controller := { s.controller with
      intake := some { i with program := i.program + 1, takes := 0, phase := .live } } } : State).issue
      (readRequest .intake (some 0) (s.settingsD.programTable + BitVec.ofNat 64 (128 * (i.program + 1).val)) 16) := by
  simp only [State.nextProgram, h]
  rw [if_neg (by simp [going]), if_neg more, State.beginProgram]
  simp only [h, Option.map_some]
  rfl

theorem State.nextProgram_last (last : i.program = 15) : s.nextProgram = (s.intakeAt i .allDone, none) := by
  simp only [State.nextProgram, h]
  rw [if_neg (by simp [going]), if_pos last, State.atPhase_of_intake h]
  rfl

theorem State.nextProgram_ctx (q : Program) : s.nextProgram.1.ctx q = s.ctx q := by
  by_cases last : i.program = 15
  · rw [State.nextProgram_last h going last]
    rfl
  · rw [State.nextProgram_next h going last]
    obtain ⟨l, issued⟩ := ({ s with controller := { s.controller with
      intake := some { i with program := i.program + 1, takes := 0, phase := .live } } } : State).issue_setLink
      (readRequest .intake (some 0) (s.settingsD.programTable + BitVec.ofNat 64 (128 * (i.program + 1).val)) 16)
    rw [issued]
    rfl

theorem State.tryTake_ctx (p q : Program) : (s.tryTake p).1.ctx q = s.ctx q := by
  simp only [State.tryTake, h]
  rw [if_neg (by simp [going])]
  split
  · rw [State.atPhase_of_intake h]
    obtain ⟨l, issued⟩ := ({ s with controller := { s.controller with
      intake := some { i with phase := .stateRead } } } : State).issue_setLink
      (readRequest .intake (some (s.ctx p).fixed.accessKey) (s.ctx p).nextRecord 1)
    rw [issued]
    rfl
  · exact State.nextProgram_ctx h going q

/-- R2, R19: after the transition the pair is handed and the takes begin; of the contexts the pair kept alone changes. -/
theorem State.afterMode_ctx (p q : Program) : ∃ pair, (s.afterMode p).1.ctx q = { s.ctx q with lastPair := pair } := by
  obtain ⟨intake, ctx⟩ := s.handPair_frame p
  obtain ⟨pair, same⟩ := ctx q
  exact ⟨pair, (State.tryTake_ctx (intake.trans h) going p q).trans same⟩

/-! ### The end of the live and of the fixed read -/

theorem State.intakeStep_live (phase : i.phase = .live) (r : Reply) : s.intakeStep r = s.liveReply i.program r := by
  simp only [State.intakeStep, h, phase, going, Bool.false_eq_true, if_false]

theorem State.intakeStep_fixed (phase : i.phase = .fixed) (r : Reply) : s.intakeStep r = s.fixedReply i.program r := by
  simp only [State.intakeStep, h, phase, going, Bool.false_eq_true, if_false]

end

section

variable {s : State} {p : Program}

theorem State.handCue_unread (unread : (s.ctx p).live = none) : s.handCue p = s := by
  simp only [State.handCue, unread]

theorem State.handCue_read {l : Live} (live : (s.ctx p).live = some l) :
    s.handCue p = { s with side := s.side.handLevel p l.cueClear } := by
  simp only [State.handCue, live]
  rfl

/-- R2, R3, R24: a live part that was read is kept, and its clamping noted. -/
def State.liveTaken (s : State) (p : Program) (data : List Byte) : State :=
  let t := s.modCtx p fun c => { c with live := some (readLive s.settingsD.cpi data) }
  if liveClamped s.settingsD.cpi data then t.intakeNote p fun n => { n with configClamped := true } else t

theorem State.liveTaken_live (s : State) (p : Program) (data : List Byte) :
    ((s.liveTaken p data).ctx p).live = some (readLive s.settingsD.cpi data) := by
  have live := s.ctx_modCtx_same p fun c => { c with live := some (readLive s.settingsD.cpi data) }
  unfold State.liveTaken
  dsimp only
  split
  · exact (congrArg ProgramCtx.live live :)
  · exact (congrArg ProgramCtx.live live :)

theorem State.liveReply_done (data : List Byte) : s.liveReply p (.done data) =
    ({ s.liveTaken p data with
      side := (s.liveTaken p data).side.handLevel p (readLive s.settingsD.cpi data).cueClear } : State).transition p :=
  congrArg (fun x : State => x.transition p) (State.handCue_read (s.liveTaken_live p data))

theorem State.liveReply_failed (f : Failure) : s.liveReply p (.failed f) =
    ((s.intakeNote p fun n => { n with entryUnreadable := true }).handCue p).transition p := rfl

theorem State.fixedReply_draining (draining : s.control.device = .draining) (r : Reply) : s.fixedReply p r = s.nextProgram :=
  if_pos draining

variable (running : s.control.device ≠ .draining)

include running

theorem State.fixedReply_failed (f : Failure) : s.fixedReply p (.failed f) =
    ((s.modCtx p fun c => { c with refused := .entryUnreadable }).intakeNote p fun n =>
      { n with entryUnreadable := true }).nextProgram := if_neg running

theorem State.fixedReply_accepted {data : List Byte} (accepted : fixedRefusal data = .none) :
    s.fixedReply p (.done data) = (s.startProgram p (readFixed data)).afterMode p := by
  rw [State.fixedReply, if_neg running, accepted]

theorem State.fixedReply_refused {data : List Byte} (refused : fixedRefusal data ≠ .none) :
    s.fixedReply p (.done data) = (s.modCtx p fun c => { c with refused := fixedRefusal data }).nextProgram := by
  rw [State.fixedReply, if_neg running]
  cases code : fixedRefusal data with
  | none => exact absurd code refused
  | _ => rfl

end

/-! ### Abandonment at intake -/

section

variable {s : State} {i : Intake} (h : s.controller.intake = some i)

include h

theorem State.setLink_atPhase (l : Link) (phase : IntakePhase) :
    (s.setLink l).atPhase phase = (s.intakeAt i phase).setLink l := State.atPhase_of_intake (s := s.setLink l) h phase

/-- R13: the visit of a window from a name that is not FAULTED, whose write is accepted. -/
theorem State.intakeAfter_abandons {k : Nat} {region : Byte} (valid : k < (s.ctx i.program).window.count)
    (unfaulted : ((s.ctx i.program).window.named k).faulted = false)
    (passes : checkAccess s.link.regions (s.abandonWrite .intake i.program k) = .ok region) (fuel : Nat) :
    State.intakeAfter i.program
        (s.abandonFrom .intake (State.intakeAbandonNote i.program) i.program (fuel + 1) k) =
      (s.intakeAt i (.abandonOutcome k)).issue (s.abandonWrite .intake i.program k) := by
  rw [State.abandonFrom_of_ok valid unfaulted passes, State.issue_of_ok passes, State.issue_of_ok (region := region)]
  · exact Prod.ext (State.setLink_atPhase h _ _) rfl
  · exact passes

/-- R13: the outcome fields are written and the write of DONE is accepted. -/
theorem State.intakeAfter_writesDone {k : Nat} {region : Byte}
    (passes : checkAccess s.link.regions (writeRequest .intake (some (s.ctx i.program).fixed.accessKey)
      ((s.ctx i.program).window.named k).record [doneCode]) = .ok region) (data : List Byte) :
    State.intakeAfter i.program
        (s.abandonReply .intake (State.intakeAbandonNote i.program) i.program false k (.done data)) =
      (s.intakeAt i (.abandonState k)).issue (writeRequest .intake (some (s.ctx i.program).fixed.accessKey)
        ((s.ctx i.program).window.named k).record [doneCode]) := by
  rw [State.abandonReply_outcome_of_ok passes, State.issue_of_ok passes, State.issue_of_ok (region := region)]
  · exact Prod.ext (State.setLink_atPhase h _ _) rfl
  · exact passes

end

/-- R13, R36: the abandonment of a window is over. -/
structure Abandoned (s : State) (p : Program) (t : Cont) : Prop where
  off : (t.1.ctx p).state = .off
  empty : (t.1.ctx p).window.count = 0
  nextRecord : (t.1.ctx p).nextRecord = (s.ctx p).nextRecord
  lastOutcome : (t.1.ctx p).lastOutcome = (s.ctx p).lastOutcome

theorem State.intakeAfter_finished {s : State} {i : Intake} (h : s.controller.intake = some i) (going : i.halted = false)
    (p : Program) : Abandoned s p (State.intakeAfter p (s, .finished)) := by
  have programs_ := s.endAbandon_programs p
  have intake : (s.endAbandon p).controller.intake = some i := by
    rw [State.endAbandon, State.programOff, State.noticeIfAllOff]
    split
    · exact h
    · exact h
  have ctx : (State.intakeAfter p (s, .finished)).1.ctx p =
      { s.ctx p with state := .off, window := { (s.ctx p).window with count := 0 } } := by
    refine (State.nextProgram_ctx intake going p).trans ?_
    rw [State.ctx, programs_]
    exact PerProgram.look_modify_same _ _ _
  exact ⟨by rw [ctx], by rw [ctx], by rw [ctx], by rw [ctx]⟩

/-! ### Transitions -/

section

variable {s : State} {p : Program}

theorem State.desiredMode_read {l : Live} (live : (s.ctx p).live = some l) :
    s.desiredMode p = if s.control.device = .draining ∧ l.mode = .run then .off else l.mode := by
  simp only [State.desiredMode, live]

variable {mode : DesiredMode} (desired : s.desiredMode p = mode)

include desired

theorem State.transition_starts (off : (s.ctx p).state = .off) (run : mode = .run) : s.transition p =
    (s.atPhase .fixed).issue
      (readRequest .intake (some 0) (s.settingsD.programTable + BitVec.ofNat 64 (128 * p.val + 0x10)) 48) := by
  subst run
  simp only [State.transition, off, desired]

theorem State.transition_off (off : (s.ctx p).state = .off) (other : mode ≠ .run) : s.transition p = s.nextProgram := by
  cases mode with
  | run => exact absurd rfl other
  | off => simp only [State.transition, off, desired]
  | abort => simp only [State.transition, off, desired]

theorem State.transition_runs (on : (s.ctx p).state ≠ .off) (stays : (s.ctx p).state ≠ .draining) (run : mode = .run) :
    s.transition p = s.afterMode p := by
  subst run
  cases state : (s.ctx p).state with
  | off => exact absurd state on
  | draining => exact absurd state stays
  | _ => simp only [State.transition, state, desired]

theorem State.transition_resumes (draining : (s.ctx p).state = .draining) (run : mode = .run) :
    s.transition p = (s.modCtx p fun c => { c with state := .running }).afterMode p := by
  subst run
  simp only [State.transition, draining, desired]

theorem State.transition_drains (state : (s.ctx p).state = .running ∨ (s.ctx p).state = .draining) (off : mode = .off) :
    s.transition p = s.drainProgram p := by
  subst off
  obtain state | state := state
  · simp only [State.transition, state, desired]
  · simp only [State.transition, state, desired]

theorem State.transition_abandons (on : (s.ctx p).state ≠ .off)
    (abandons : mode = .abort ∨ mode = .off ∧ ((s.ctx p).state = .priming ∨ (s.ctx p).state = .held)) :
    s.transition p = s.intakeAbandon p := by
  obtain rfl | ⟨rfl, priming | held⟩ := abandons
  · cases state : (s.ctx p).state with
    | off => exact absurd state on
    | _ => simp only [State.transition, state, desired]
  · simp only [State.transition, priming, desired]
  · simp only [State.transition, held, desired]

end

section

variable {s : State} {i : Intake} (h : s.controller.intake = some i) (going : i.halted = false)

include h going

/-- R8, R10: a program that drains. -/
theorem State.drainProgram_values :
    let c := s.ctx i.program
    let t := s.drainProgram i.program
    (t.1.ctx i.program).state = (if c.window.count = 0 then .off else .draining) ∧ (t.1.ctx i.program).window = c.window ∧
      (t.1.ctx i.program).nextRecord = c.nextRecord := by
  intro c t
  by_cases empty : c.window.count = 0
  · have drains : t = (s.programOff i.program).afterMode i.program := if_pos empty
    have intake : (s.programOff i.program).controller.intake = some i := by
      rw [State.programOff, State.noticeIfAllOff]
      split
      · exact h
      · exact h
    have off : (s.programOff i.program).ctx i.program = { s.ctx i.program with state := .off } := by
      have same := s.ctx_modCtx_same i.program fun c => { c with state := .off }
      rw [State.programOff, State.noticeIfAllOff]
      split
      · exact same
      · exact same
    obtain ⟨pair, ctx⟩ := State.afterMode_ctx intake going i.program i.program
    rw [drains, ctx, off, if_pos empty]
    exact ⟨rfl, rfl, rfl⟩
  · have drains : t = (s.modCtx i.program fun c => { c with state := .draining }).afterMode i.program := if_neg empty
    have off := s.ctx_modCtx_same i.program fun c => { c with state := .draining }
    obtain ⟨pair, ctx⟩ := State.afterMode_ctx
      (s := s.modCtx i.program fun c => { c with state := .draining }) h going i.program i.program
    rw [drains, ctx, off, if_neg empty]
    exact ⟨rfl, rfl, rfl⟩

end

/-- R44 to R56: the allocation that the end of an intake begins. -/
theorem State.allocate_values (s : State) :
    s.allocate.interval = s.timer.number ∧ s.allocate.grants.map Grant.program = s.codingPrograms ∧
      s.allocate.holds = s.holdGroup ∧ s.allocate.primed = s.primedPrograms ∧
      s.allocate.reserve = s.reservationFor s.codingPrograms ∧
      s.allocate.pool = s.settingsD.cpi - s.allocate.reserve - s.totalDebt - s.allocate.holds.length := by
  obtain ⟨interval, pool, reserve, holds, primed, -, -, grants⟩ := allocationOf_values s.timer.number s.settingsD.cpi
    (s.reservationFor s.codingPrograms) s.totalDebt s.allocator.rotation (s.codingPrograms.map s.coder) s.holdGroup
    s.primedPrograms
  rw [← State.allocate] at interval pool reserve holds primed grants
  refine ⟨interval, ?_, holds, primed, reserve, by rw [pool, reserve, holds]⟩
  have coders := congrArg (List.map Coder.program)
    (finalShares_coders s.allocate.pool s.allocator.rotation (s.codingPrograms.map s.coder))
  rw [List.map_map, List.map_map] at coders
  rw [grants, List.map_map]
  exact coders.trans (List.map_id _)

/-- R1, R24: an intake that a boundary has overtaken is followed by that of the open interval. -/
theorem exec_intakeComplete_overtaken {s : State} {i : Intake} (done : s.intakeDone = true)
    (intake : s.controller.intake = some i) (late : i.interval ≠ s.timer.number) :
    exec .intakeComplete s = .next s.mergeIntakeNotes.intakeAtBoundary := by
  change execIntakeComplete s = _
  rw [execIntakeComplete, intake]
  dsimp only
  rw [if_pos done, if_neg late]

section

variable {s : State} {i : Intake} (h : s.controller.intake = some i) (going : i.halted = false)

include h going

omit going in
theorem State.intakeAbandon_waits (finish : (s.ctx i.program).finish ≠ none) :
    s.intakeAbandon i.program = (s.intakeAt i .waitFinish, none) := by
  rw [State.intakeAbandon, if_pos (Option.isSome_iff_ne_none.2 finish), State.atPhase_of_intake h]
  rfl

omit h going in
theorem State.intakeAbandon_visits (finish : (s.ctx i.program).finish = none) : s.intakeAbandon i.program =
    State.intakeAfter i.program (s.abandonFrom .intake (State.intakeAbandonNote i.program) i.program 4 0) :=
  if_neg (by simp [finish])

/-- R13: behind the last name of a window the abandonment is over. -/
theorem State.intakeAfter_past {k : Nat} (past : (s.ctx i.program).window.count ≤ k) : Abandoned s i.program
    (State.intakeAfter i.program (s.abandonFrom .intake (State.intakeAbandonNote i.program) i.program 4 k)) := by
  rw [State.abandonFrom_done past]
  exact State.intakeAfter_finished h going i.program

/-- R13: the end of a write of an abandonment behind which no name follows. -/
theorem State.intakeStep_abandoned {k : Nat} {reply : Reply}
    (phase : i.phase = .abandonState k ∨ (i.phase = .abandonOutcome k ∧ ∃ f, reply = .failed f))
    (past : (s.ctx i.program).window.count ≤ k + 1) : Abandoned s i.program (s.intakeStep reply) := by
  have noted : ∀ f, Abandoned s i.program (State.intakeAfter i.program
      (s.abandonReply .intake (State.intakeAbandonNote i.program) i.program (f : Bool × Failure).1 k (.failed f.2))) := by
    intro f
    obtain ⟨off, empty, nextRecord, lastOutcome⟩ :=
      State.intakeAfter_past (s := State.intakeAbandonNote i.program s) h going past
    exact ⟨off, empty, nextRecord, lastOutcome⟩
  obtain at_ | ⟨at_, f, rfl⟩ := phase
  · have step : s.intakeStep reply = State.intakeAfter i.program
        (s.abandonReply .intake (State.intakeAbandonNote i.program) i.program true k reply) := by
      simp only [State.intakeStep, h, at_]
    rw [step]
    cases reply with
    | done data => exact State.intakeAfter_past h going past
    | failed f => exact noted (true, f)
  · have step : s.intakeStep (.failed f) = State.intakeAfter i.program
        (s.abandonReply .intake (State.intakeAbandonNote i.program) i.program false k (.failed f)) := by
      simp only [State.intakeStep, h, at_]
    rw [step]
    exact noted (false, f)

end

/-- Settles O41. -/
theorem intakeCompletionBeginsTheAllocation : Obligations.IntakeCompletionBeginsTheAllocation := by
  unfold Obligations.IntakeCompletionBeginsTheAllocation
  refine ⟨fun cpi data => ?live, fun data => ?fixed_, fun data => fixedRefusal_firstFailing data, fun s p => ?pair
    , fun data => fixedRefusal_eq_none data, fun s p f => ?start, fun s i intake going => ?steps
    , fun s i running intake phase reports finish => ?ends⟩
  case live =>
    exact ⟨modeOf_eq _, clampWeight_eq _, clampMax_eq _ _, (clampMin_eq _ _).trans (by rw [clampMax_eq]), targetOf_eq _
      , (Bool.eq_iff_iff.2 (by simp [readLive])), rfl, liveClamped_eq_false cpi data⟩
  case fixed_ =>
    refine ⟨readFixed_address data 0, readFixed_address data 8, rfl, (leNat_one data 0x14).symm, rfl, rfl, rfl, rfl⟩
  case pair =>
    exact ⟨fun l target live hasTarget scrambled on new => State.handPair_hands live hasTarget scrambled on new
      , State.handPair_stays, rfl⟩
  case start =>
    obtain ⟨own, others⟩ := s.startProgram_values p f
    exact ⟨own, rfl, rfl, rfl, rfl, others, rfl⟩
  case steps =>
    intro p c put ended abandons
    refine ⟨State.nextProgram_next intake going, State.nextProgram_last intake going, fun reply waits => ?run
      , fun phase => ⟨fun data => ?read, fun f => ?unread⟩, fun phase => ⟨fun draining reply => ?stopped, fun running => ?checked⟩
      , fun l live => ?transition, fun k reply phase => ⟨fun past => ?abandoned, fun region data done valid unfaulted passes => ?next⟩
      , fun k region data phase passes => ?writes⟩
    case run =>
      rw [State.intakeReply]
      generalize s.intakeStep reply = cont at waits ⊢
      obtain ⟨t, pending⟩ := cont
      subst waits
      rfl
    case read => exact (State.intakeStep_live intake going phase _).trans (State.liveReply_done data)
    case unread =>
      have failed := (State.intakeStep_live intake going phase (.failed f)).trans (State.liveReply_failed f)
      exact ⟨fun none => failed.trans (congrArg (State.transition · p) (State.handCue_unread none))
        , fun l live => failed.trans (congrArg (State.transition · p) (State.handCue_read live))⟩
    case stopped => exact (State.intakeStep_fixed intake going phase reply).trans (State.fixedReply_draining draining reply)
    case checked =>
      have step := State.intakeStep_fixed intake going phase
      exact ⟨fun data accepted => (step _).trans (State.fixedReply_accepted running accepted)
        , fun data refused => (step _).trans (State.fixedReply_refused running refused)
        , fun f => (step _).trans (State.fixedReply_failed running f)⟩
    case transition =>
      intro mode
      have desired : s.desiredMode p = mode := State.desiredMode_read live
      refine ⟨fun off run => ?_, fun off other => State.transition_off desired off other, fun on run => ?_
        , fun state off valid => ?_, fun state off => ?_, fun on leaves => ⟨fun finish => ?_, fun finish => ⟨fun empty => ?_
        , fun region valid unfaulted passes => ?_⟩⟩⟩
      · rw [State.transition_starts desired off run, State.atPhase_of_intake intake]
      · by_cases draining : c.state = .draining
        · have resumes := State.transition_resumes desired draining run
          have ctx := s.ctx_modCtx_same p fun c => { c with state := .running }
          obtain ⟨pair, same⟩ := State.afterMode_ctx (s := s.modCtx p fun c => { c with state := .running }) intake going p p
          rw [if_pos draining, resumes, same, ctx]
          exact ⟨rfl, rfl, rfl, fun stays => absurd draining stays, fun _ => rfl⟩
        · have runs := State.transition_runs desired on draining run
          obtain ⟨pair, same⟩ := State.afterMode_ctx intake going p p
          rw [if_neg draining, runs, same]
          exact ⟨rfl, rfl, rfl, fun _ => rfl, fun drains => absurd drains draining⟩
      · rw [State.transition_drains desired state off]
        exact if_neg (Nat.ne_of_gt valid)
      · rw [State.transition_drains desired state off]
        exact State.drainProgram_values intake going
      · rw [State.transition_abandons desired on leaves]
        exact State.intakeAbandon_waits intake finish
      · rw [State.transition_abandons desired on leaves, State.intakeAbandon_visits finish]
        obtain ⟨isOff, none, nextRecord, lastOutcome⟩ := State.intakeAfter_past intake going (Nat.le_of_eq empty)
        exact ⟨isOff, none, nextRecord, lastOutcome⟩
      · rw [State.transition_abandons desired on leaves, State.intakeAbandon_visits finish]
        exact State.intakeAfter_abandons intake valid unfaulted passes 3
    case abandoned =>
      obtain ⟨isOff, none, nextRecord, lastOutcome⟩ := State.intakeStep_abandoned intake going phase past
      exact ⟨isOff, none, nextRecord, lastOutcome⟩
    case next =>
      subst done
      obtain at_ | ⟨-, f, failed⟩ := phase
      · have step : s.intakeStep (.done data) = State.intakeAfter p
            (s.abandonReply .intake (State.intakeAbandonNote p) p true k (.done data)) := by
          simp only [State.intakeStep, intake, at_]
          rfl
        rw [step, State.abandonReply_state]
        exact State.intakeAfter_abandons intake valid unfaulted passes 3
      · cases failed
    case writes =>
      have step : s.intakeStep (.done data) = State.intakeAfter p
          (s.abandonReply .intake (State.intakeAbandonNote p) p false k (.done data)) := by
        simp only [State.intakeStep, intake, phase]
        rfl
      rw [step]
      exact State.intakeAfter_writesDone intake passes data
  case ends =>
    have done := State.intakeDone_of running intake phase reports finish
    refine ⟨fun current => ?_, fun late goesOn active => ?_⟩
    · obtain ⟨interval, grants, holds, primed, reserve, pool⟩ := s.allocate_values
      exact ⟨_, s.allocate, exec_intakeComplete_current done intake current, rfl, interval, grants, holds, primed, reserve, pool
        , rfl, fun p => PerProgram.look_tabulate _ p⟩
    · obtain ⟨-, allocator, -, -, j, next, interval, -⟩ := s.mergeIntakeNotes.beginIntake_refused
      have begins : s.mergeIntakeNotes.intakeAtBoundary = s.mergeIntakeNotes.beginIntake :=
        State.intakeAtBoundary_begins rfl goesOn active
      exact ⟨_, j, (exec_intakeComplete_overtaken done intake late).trans (congrArg _ begins), next, interval
        , congrArg Allocator.inFlight allocator⟩

end Sys2Proof.Machine

/-! PROOFS. What follows the end of a pass: the build of an accepted result, the next pass, or the end of the job (4, R77 to R84). -/

namespace Sys2Proof.Machine

variable {s t : State} {e : Engine} {j : Job} {w : PassWork}

/-! ### The key and the pages of a build -/

/-- R107: the key unit answers with the active parity of a record in force and the word of its slot, where that is LOADED. -/
theorem Keys.buildKey_eq_some {k : Keys} {p : Program} {q : Parity} {word : Long} (inForce : (k.records.look p).inForce = true)
    (active : (k.records.look p).active = some q) (loaded : (k.slots.look p).slot q = .loaded word) :
    k.buildKey p = some (q, word) := by
  have slot : k.slot p q = .loaded word := loaded
  simp only [Keys.buildKey, inForce, active, slot]

theorem Keys.buildKey_eq_none {k : Keys} {p : Program}
    (missing : (k.records.look p).inForce = false ∨
      ∀ q word, (k.records.look p).active = some q → (k.slots.look p).slot q ≠ .loaded word) :
    k.buildKey p = none := by
  unfold Keys.buildKey
  dsimp only
  split
  next inForce active =>
    split
    next word loaded =>
      obtain out | unloaded := missing
      · rw [out] at inForce
        cases inForce
      · exact absurd loaded (unloaded _ _ active)
    next => rfl
  next => rfl

theorem State.setScratch_store (bytes : List Byte) : (s.setScratch e bytes).store = s.store := rfl

theorem State.endsHeld_spec (o : Outcome) : s.EndsHeld e j o (s.endsHeld e j o) := s.holdEnding_spec e j o

theorem Store.request_ok {st : Store} {n : Nat} (enough : n ≤ st.free.length) :
    st.request n = some (st.free.take n, { st with free := st.free.drop n }) := if_pos enough

theorem Store.request_refused {st : Store} {n : Nat} (few : st.free.length < n) : st.request n = none :=
  if_neg (Nat.not_le.2 few)

theorem buildPages_eq (budget draw debt : Nat) : buildPages budget draw debt = (budget + draw + 19) / 20 + (debt + 19) / 20 := rfl

/-- R107: the build of a SCRAMBLED program without a key. -/
theorem State.startBuild_missing {meanQ : Nat} (mean : weightedMean w.source.slices w.quants = meanQ)
    (scrambled : (s.ctx j.program).fixed.scrambled = true) (missing : s.keys.buildKey j.program = none) :
    s.startBuild e j w = (s.withMeanQ e meanQ).endsHeld e j .keyMissing := by
  subst mean
  exact if_pos ⟨scrambled, missing⟩

section
variable {meanQ : Nat} (mean : weightedMean w.source.slices w.quants = meanQ)
  (keyed : ¬((s.ctx j.program).fixed.scrambled = true ∧ s.keys.buildKey j.program = none))
include mean keyed

/-- R84, R117: the build with fewer free pages than it requests. -/
theorem State.startBuild_full (few : s.store.free.length < (j.budget + j.draw + 19) / 20 + (j.debt + 19) / 20) :
    s.startBuild e j w = (s.withMeanQ e meanQ).endsHeld e j .storeFull := by
  subst mean
  unfold State.startBuild
  dsimp only
  rw [if_neg (by exact keyed), buildPages_eq, State.setScratch_store, Store.request_refused few]
  rfl

/-- R84: the build with its pages and its key. -/
theorem State.startBuild_holds {key : Option (Parity × Long)}
    (kept : (if (s.ctx j.program).fixed.scrambled = true then s.keys.buildKey j.program else none) = key)
    (enough : (j.budget + j.draw + 19) / 20 + (j.debt + 19) / 20 ≤ s.store.free.length) :
    s.startBuild e j w =
      ((s.withMeanQ e meanQ).setStore
        { s.store with free := s.store.free.drop ((j.budget + j.draw + 19) / 20 + (j.debt + 19) / 20) }).setPhase e
        (.building { j with pages := s.store.free.take ((j.budget + j.draw + 19) / 20 + (j.debt + 19) / 20) }
          { sequence := w.source.sequence, size := w.size, meanQ := meanQ, key := key }) := by
  subst mean kept
  unfold State.startBuild
  dsimp only
  rw [if_neg (by exact keyed), buildPages_eq, State.setScratch_store, Store.request_ok enough]
  rfl

end

section
variable (s e j w)

/-- R84, R107: all that the build of an accepted result can lead to. -/
theorem State.startBuild_spec : s.BuildsResult e j w (s.startBuild e j w) := by
  have mean := Eq.refl (weightedMean w.source.slices w.quants)
  refine ⟨fun scrambled missing => ?_, fun q word scrambled inForce active loaded => ?_, fun clear => ?_⟩
  · rw [State.startBuild_missing mean scrambled (Keys.buildKey_eq_none missing)]
    exact State.endsHeld_spec _
  · have key := Keys.buildKey_eq_some inForce active loaded
    have keyed : ¬((s.ctx j.program).fixed.scrambled = true ∧ s.keys.buildKey j.program = none) := by
      rw [key]
      exact fun h => nomatch h.2
    refine ⟨fun enough => ?_, fun few => ?_⟩
    · rw [State.startBuild_holds mean keyed ((if_pos scrambled).trans key) enough]
      rfl
    · rw [State.startBuild_full mean keyed few]
      exact State.endsHeld_spec _
  · have keyed : ¬((s.ctx j.program).fixed.scrambled = true ∧ s.keys.buildKey j.program = none) := by
      rw [clear]
      exact fun h => nomatch h.1
    refine ⟨fun enough => ?_, fun few => ?_⟩
    · rw [State.startBuild_holds mean keyed (if_neg (by rw [clear]; exact nofun)) enough]
      rfl
    · rw [State.startBuild_full mean keyed few]
      exact State.endsHeld_spec _

end

/-! ### The offer of a floor result -/

/-- R82: what the offer of a result within the room takes of the spare pool and owes. -/
theorem floorOffer_eq {budget room spare size : Nat} (fits : size ≤ room) :
    floorOffer budget room spare size =
      if (size + 191) / 192 - budget - Nat.min ((size + 191) / 192 - budget) spare ≤ 8 then
        .ok (Nat.min ((size + 191) / 192 - budget) spare
          , (size + 191) / 192 - budget - Nat.min ((size + 191) / 192 - budget) spare)
      else .error .discardedOverrun :=
  if_neg (Nat.not_lt.2 fits)

theorem floorOffer_accepts {budget room spare size : Nat} (fits : size ≤ room)
    (covered : (size + 191) / 192 ≤ budget + spare + 8) :
    floorOffer budget room spare size =
      .ok (Nat.min ((size + 191) / 192 - budget) spare
        , (size + 191) / 192 - budget - Nat.min ((size + 191) / 192 - budget) spare) := by
  rw [floorOffer_eq fits, if_pos]
  generalize (size + 191) / 192 = cells at covered ⊢
  simp only [Nat.min_def]
  split <;> omega

theorem floorOffer_refuses {budget room spare size : Nat} (fits : size ≤ room)
    (more : budget + spare + 8 < (size + 191) / 192) : floorOffer budget room spare size = .error .discardedOverrun := by
  rw [floorOffer_eq fits, if_neg]
  generalize (size + 191) / 192 = cells at more ⊢
  simp only [Nat.min_def]
  split <;> omega

theorem floorOffer_ok {budget room spare size draw debt : Nat} (accepted : floorOffer budget room spare size = .ok (draw, debt)) :
    size ≤ room ∧ draw ≤ spare ∧ debt ≤ 8 ∧ draw + debt = (size + 191) / 192 - budget ∧ (0 < debt → draw = spare) := by
  have fits : size ≤ room := by
    by_contra above
    rw [floorOffer, if_pos (Nat.lt_of_not_le above)] at accepted
    cases accepted
  rw [floorOffer_eq fits] at accepted
  generalize (size + 191) / 192 = cells at accepted ⊢
  split at accepted
  next small =>
    obtain ⟨rfl, rfl⟩ := Prod.mk.inj (Except.ok.inj accepted)
    obtain within | beyond := Nat.le_total (cells - budget) spare
    · have draw : Nat.min (cells - budget) spare = cells - budget := Nat.min_eq_left within
      rw [draw] at small ⊢
      omega
    · have draw : Nat.min (cells - budget) spare = spare := Nat.min_eq_right beyond
      rw [draw] at small ⊢
      omega
  next => cases accepted

/-! ### The end of a pass -/

theorem exec_passEnd (phase : (s.recoder.engine e).phase = .passEnded j w) : exec (.passEnd e) s =
    if j.pass = 3 then .next s
    else if accepted j w then .next (s.startBuild e j w)
    else if j.pass = 1 then .next (s.startPass2 e j w)
    else if w.source.kind = .bi then .next (s.endsHeld e j .substituted)
    else .next (s.startFloor e j w) := by
  change execPassEnd e s = _
  rw [execPassEnd, phase]

theorem exec_floorPassEnd_stopped {reason : StopReason} (phase : (s.recoder.engine e).phase = .passEnded j w)
    (floor : j.pass = 3) (stopped : w.stopped = some reason) : exec (.floorPassEnd e) s =
      .next (s.endsHeld e j (if reason = .bufferHold then .bufferHold else .discardedOverrun)) := by
  change execFloorPassEnd e s = _
  rw [execFloorPassEnd, phase]
  dsimp only
  rw [if_pos floor, stopped]
  cases reason <;> rfl

theorem exec_floorPassEnd_refused {o : Outcome} (phase : (s.recoder.engine e).phase = .passEnded j w)
    (floor : j.pass = 3) (whole : w.stopped = none) (refused : floorOffer j.budget j.room s.recoder.spare w.size = .error o) :
    exec (.floorPassEnd e) s = .next (s.endsHeld e j o) := by
  change execFloorPassEnd e s = _
  rw [execFloorPassEnd, phase]
  dsimp only
  rw [if_pos floor, whole]
  dsimp only
  rw [refused]

theorem exec_floorPassEnd_accepted {draw debt : Nat} (phase : (s.recoder.engine e).phase = .passEnded j w)
    (floor : j.pass = 3) (whole : w.stopped = none)
    (accepted : floorOffer j.budget j.room s.recoder.spare w.size = .ok (draw, debt)) :
    exec (.floorPassEnd e) s =
      .next ((s.setRecoder { s.recoder with spare := s.recoder.spare - draw }).startBuild e
        { j with draw := draw, debt := debt } w) := by
  change execFloorPassEnd e s = _
  rw [execFloorPassEnd, phase]
  dsimp only
  rw [if_pos floor, whole]
  dsimp only
  rw [accepted]

/-- Settles O51, from the arithmetic of the offer and what the build of an accepted result can lead to. -/
theorem floorPassEndOffersTheResult : Obligations.FloorPassEndOffersTheResult := by
  unfold Obligations.FloorPassEndOffersTheResult
  refine ⟨fun budget room spare size => ⟨fun above => if_pos above, fun fits within => ?_, fun fits covered => ?_, fun _ _ =>
    floorOffer_ok, floorOffer_refuses⟩, fun s e j w phase floor => ⟨fun whole fits covered => ?_, fun o ending => ?_⟩⟩
  · have none_over : (size + 191) / 192 - budget = 0 := by omega
    rw [floorOffer_accepts fits (by omega), none_over]
    simp
  · have accepted := floorOffer_accepts fits covered
    obtain ⟨-, -, small, sum, -⟩ := floorOffer_ok accepted
    exact ⟨_, _, accepted, rfl, sum, small⟩
  · have accepted := floorOffer_accepts fits covered
    obtain ⟨-, -, small, sum, -⟩ := floorOffer_ok accepted
    exact ⟨_, _, _, exec_floorPassEnd_accepted phase floor whole accepted, rfl, sum, small, State.startBuild_spec _ e _ w⟩
  · obtain ⟨stopped, rfl⟩ | ⟨stopped, rfl⟩ | ⟨whole, above, rfl⟩ | ⟨whole, fits, more, rfl⟩ := ending
    · exact ⟨_, exec_floorPassEnd_stopped phase floor stopped, State.endsHeld_spec _⟩
    · exact ⟨_, exec_floorPassEnd_stopped phase floor stopped, State.endsHeld_spec _⟩
    · exact ⟨_, exec_floorPassEnd_refused phase floor whole (if_pos above), State.endsHeld_spec _⟩
    · exact ⟨_, exec_floorPassEnd_refused phase floor whole (floorOffer_refuses fits more), State.endsHeld_spec _⟩

end Sys2Proof.Machine

/-! PROOFS. How a pass codes a picture, and how an engine goes on with its job (4, R71 to R81). -/

namespace Sys2Proof.Machine

/-! ### The codes of a block -/

theorem codeword_eq {table : List CodeEntry} {index : Nat} {x : CodeEntry} (entry : table[index]? = some x) :
    codeword table index = (List.range x.length).map fun i => x.value.getLsbD (x.length - 1 - i) := by
  rw [codeword, List.getD_eq_getElem?_getD, entry]
  rfl

theorem entryCode_short {run : Nat} {level : Int} (table : List CodeEntry) (small : run ≤ 15) (low : level.natAbs ≤ 8) :
    entryCode table run level = codeword table (run * 8 + (level.natAbs - 1)) ++ [decide (level < 0)] :=
  if_pos ⟨small, low⟩

theorem entryCode_escape {run : Nat} {level : Int} (table : List CodeEntry) (beyond : 15 < run ∨ 8 < level.natAbs) :
    entryCode table run level = codeword table 128 ++ ((List.range 6).map fun i => run.testBit (5 - i)) ++
      (List.range 12).map fun i => (BitVec.ofInt 12 level).getLsbD (11 - i) :=
  if_neg fun h => by omega

theorem blockCodes_length (table : List CodeEntry) (next : Nat) (kept : List Coeff) :
    (blockCodes table next kept).length = kept.length + 1 := by
  induction kept generalizing next with
  | nil => rfl
  | cons x rest ih => exact congrArg (· + 1) (ih _)

/-- R75: the end-of-block code follows the last entry. -/
theorem blockCodes_end (table : List CodeEntry) (next : Nat) (kept : List Coeff) :
    (blockCodes table next kept)[kept.length]? = some (codeword table 129) := by
  induction kept generalizing next with
  | nil => rfl
  | cons x rest ih => exact ih _

/-- R75: the first entry's run is counted from the position after the one before it. -/
theorem blockCodes_first (table : List CodeEntry) (next : Nat) {kept : List Coeff} {x : Coeff} (first : kept[0]? = some x) :
    (blockCodes table next kept)[0]? = some (entryCode table (x.1 - next) x.2) := by
  cases kept with
  | nil => cases first
  | cons y rest =>
    obtain rfl : y = x := Option.some.inj first
    rfl

/-- R75: every later entry's run is counted from the entry before it. -/
theorem blockCodes_later (table : List CodeEntry) (next : Nat) {kept : List Coeff} {i : Nat} {x y : Coeff}
    (earlier : kept[i]? = some y) (later : kept[i + 1]? = some x) :
    (blockCodes table next kept)[i + 1]? = some (entryCode table (x.1 - y.1 - 1) x.2) := by
  induction kept generalizing next i with
  | nil => cases earlier
  | cons z rest ih =>
    cases i with
    | zero =>
      obtain rfl : z = y := Option.some.inj earlier
      rw [Nat.sub_sub]
      exact blockCodes_first table (z.1 + 1) later
    | succ i => exact ih _ earlier later

/-! ### The bytes of a sequence of bits -/

/-- The bits of a number written most significant first. -/
theorem testBit_foldl_bits (bits : List Bool) {i : Nat} (inside : i < bits.length) :
    (bits.foldl (fun acc x => 2 * acc + boolNat x) 0).testBit (bits.length - 1 - i) = bits[i]?.getD false := by
  induction bits using List.reverseRecOn with
  | nil => exact absurd inside (Nat.not_lt_zero _)
  | append_singleton front last ih =>
    rw [List.foldl_append, List.length_append]
    generalize front.foldl (fun acc x => 2 * acc + boolNat x) 0 = v at ih ⊢
    simp only [List.foldl_cons, List.foldl_nil, List.length_singleton, Nat.add_sub_cancel]
    rw [List.length_append, List.length_singleton] at inside
    obtain earlier | rfl := Nat.lt_or_eq_of_le (Nat.le_of_lt_succ inside)
    · have half : (2 * v + boolNat last) / 2 = v := by cases last <;> simp [boolNat]; omega
      rw [show front.length - i = front.length - 1 - i + 1 by omega, Nat.testBit_succ, half, ih earlier,
        List.getElem?_append_left earlier]
    · rw [Nat.sub_self, Nat.testBit_zero, List.getElem?_append_right (Nat.le_refl _), Nat.sub_self]
      cases last <;> simp [boolNat]

theorem byteOfBits_getLsbD {bits : List Bool} (eight : bits.length = 8) {i : Nat} (inside : i < 8) :
    (byteOfBits bits).getLsbD (7 - i) = bits[i]?.getD false := by
  have bit := testBit_foldl_bits bits (i := i) (by omega)
  rw [eight] at bit
  rw [byteOfBits, BitVec.getLsbD_ofNat, bit, decide_eq_true (by omega), Bool.true_and]

/-- The eight bits at the front of a sequence, filled up with zero bits. -/
def firstEight (bits : List Bool) : List Bool := bits.take 8 ++ List.replicate (8 - bits.length) false

theorem firstEight_length (bits : List Bool) : (firstEight bits).length = 8 := by
  rw [firstEight, List.length_append, List.length_take, List.length_replicate]
  omega

theorem firstEight_getElem? (bits : List Bool) {i : Nat} (inside : i < 8) :
    (firstEight bits)[i]?.getD false = bits[i]?.getD false := by
  rw [firstEight]
  obtain held | past := Nat.lt_or_ge i bits.length
  · rw [List.getElem?_append_left (by rw [List.length_take]; omega), List.getElem?_take_of_lt inside]
  · rw [List.getElem?_append_right (by rw [List.length_take]; omega), List.getElem?_eq_none past, List.getElem?_replicate]
    split <;> rfl

/-- R75: the bytes of a sequence, one by one. -/
theorem packBits_of_ne_nil {bits : List Bool} (some_left : bits ≠ []) :
    packBits bits = byteOfBits (firstEight bits) :: packBits (bits.drop 8) := by
  obtain _ | ⟨_, _ | ⟨_, _ | ⟨_, _ | ⟨_, _ | ⟨_, _ | ⟨_, _ | ⟨_, _ | ⟨_, rest⟩⟩⟩⟩⟩⟩⟩⟩ := bits
  · exact absurd rfl some_left
  case cons.cons.cons.cons.cons.cons.cons.cons => simp [packBits, firstEight]
  all_goals rfl

theorem packBits_length (bits : List Bool) : (packBits bits).length = (bits.length + 7) / 8 := by
  induction size : bits.length using Nat.strong_induction_on generalizing bits with
  | _ n ih =>
    obtain rfl | some_left := eq_or_ne bits []
    · subst size
      rfl
    · have positive := List.length_pos_iff.2 some_left
      have shorter := List.length_drop (i := 8) (l := bits)
      rw [packBits_of_ne_nil some_left, List.length_cons, ih _ (by omega) (bits.drop 8) rfl]
      omega

/-- R75: the bits stand in the bytes in order, the padding is zero. -/
theorem packBits_getLsbD (bits : List Bool) {i : Nat} (inside : i < 8 * (packBits bits).length) :
    ((packBits bits)[i / 8]?.getD 0).getLsbD (7 - i % 8) = bits[i]?.getD false := by
  induction size : bits.length using Nat.strong_induction_on generalizing bits i with
  | _ n ih =>
    obtain rfl | some_left := eq_or_ne bits []
    · exact absurd inside (Nat.not_lt_zero _)
    · have positive := List.length_pos_iff.2 some_left
      rw [packBits_of_ne_nil some_left] at inside ⊢
      obtain head | tail := Nat.lt_or_ge i 8
      · rw [Nat.div_eq_of_lt head, Nat.mod_eq_of_lt head]
        exact (byteOfBits_getLsbD (firstEight_length bits) head).trans (firstEight_getElem? bits head)
      · obtain ⟨k, rfl⟩ := Nat.exists_eq_add_of_le' tail
        have shorter := List.length_drop (i := 8) (l := bits)
        have rest := ih _ (by omega) (bits.drop 8) (i := k)
          (by rw [List.length_cons] at inside; omega) rfl
        rw [Nat.add_div_right k (by decide), Nat.add_mod_right, List.getElem?_cons_succ, rest, List.getElem?_drop,
          Nat.add_comm]

/-! ### The coding of a slice -/

section
variable {limits : List (Nat × StopReason)}

theorem limitExceeded_none {size : Nat} (within : ∀ l ∈ limits, size ≤ l.1) : limitExceeded limits size = none := by
  rw [limitExceeded, List.find?_eq_none.2 fun l mem => by simpa using within l mem]
  rfl

theorem limitExceeded_some {before after : List (Nat × StopReason)} {bound size : Nat} {reason : StopReason}
    (named : limits = before ++ (bound, reason) :: after) (within : ∀ l ∈ before, size ≤ l.1) (past : bound < size) :
    limitExceeded limits size = some reason := by
  rw [limitExceeded, named, List.find?_append, List.find?_eq_none.2 fun l mem => by simpa using within l mem,
    Option.none_or, List.find?_cons_of_pos (by simpa using past)]
  rfl

/-- The running size after some more codes. -/
def runningSize (base : Nat) (bits : List Bool) (codes : List (List Bool)) : Nat :=
  base + ((bits ++ codes.flatten).length + 7) / 8

theorem runningSize_cons (base : Nat) (bits code : List Bool) (codes : List (List Bool)) :
    runningSize base bits (code :: codes) = runningSize base (bits ++ code) codes := by
  rw [runningSize, runningSize, List.flatten_cons, List.append_assoc]

theorem emitCodes_cons_within {base : Nat} {bits code : List Bool} {codes : List (List Bool)}
    (within : ∀ l ∈ limits, runningSize base bits [code] ≤ l.1) :
    emitCodes limits base bits (code :: codes) = emitCodes limits base (bits ++ code) codes := by
  have size : base + ceilDiv (bits ++ code).length 8 = runningSize base bits [code] := by
    rw [runningSize, List.flatten_singleton]
    rfl
  rw [emitCodes, size, limitExceeded_none within]

theorem emitCodes_cons_past {base : Nat} {bits code : List Bool} {codes : List (List Bool)} {reason : StopReason}
    (past : limitExceeded limits (runningSize base bits [code]) = some reason) :
    emitCodes limits base bits (code :: codes) = .error reason := by
  have size : base + ceilDiv (bits ++ code).length 8 = runningSize base bits [code] := by
    rw [runningSize, List.flatten_singleton]
    rfl
  rw [emitCodes, size, past]

/-- R79: codes whose running sizes keep within every limit are all written. -/
theorem emitCodes_ok {base : Nat} {bits : List Bool} {codes : List (List Bool)}
    (within : ∀ n, 1 ≤ n → n ≤ codes.length → ∀ l ∈ limits, runningSize base bits (codes.take n) ≤ l.1) :
    emitCodes limits base bits codes = .ok (bits ++ codes.flatten) := by
  induction codes generalizing bits with
  | nil => exact congrArg Except.ok (List.append_nil _).symm
  | cons code rest ih =>
    rw [emitCodes_cons_within (within 1 (Nat.le_refl _) (Nat.succ_le_succ (Nat.zero_le _))), ih fun n least most l mem => ?_,
      List.flatten_cons, List.append_assoc]
    rw [← runningSize_cons]
    exact within (n + 1) (Nat.le_add_left _ _) (Nat.succ_le_succ most) l mem

/-- R79: the pass stops at the first code after which the running size exceeds a limit. -/
theorem emitCodes_error {base : Nat} {bits : List Bool} {codes : List (List Bool)} {reason : StopReason} {n : Nat}
    (least : 1 ≤ n) (most : n ≤ codes.length)
    (within : ∀ m, 1 ≤ m → m < n → ∀ l ∈ limits, runningSize base bits (codes.take m) ≤ l.1)
    (past : limitExceeded limits (runningSize base bits (codes.take n)) = some reason) :
    emitCodes limits base bits codes = .error reason := by
  induction codes generalizing bits n with
  | nil => exact absurd most (by rw [List.length_nil]; omega)
  | cons code rest ih =>
    obtain ⟨n, rfl⟩ := Nat.exists_eq_add_of_le' least
    cases n with
    | zero => exact emitCodes_cons_past past
    | succ n =>
      rw [emitCodes_cons_within (within 1 (Nat.le_refl _) (by omega))]
      refine ih (Nat.le_add_left 1 n) (Nat.le_of_succ_le_succ most) (fun m low high l mem => ?_) ?_
      · rw [← runningSize_cons]
        exact within (m + 1) (Nat.le_add_left _ _) (Nat.succ_lt_succ high) l mem
      · rw [← runningSize_cons]
        exact past

end

section
variable {s : State} {e : Engine} {j : Job} {w : PassWork}

/-! ### The end of a slice read -/

theorem State.deliver_engine (r : Reply) : s.deliver (.engine e) r = State.engineGoes e (s.engineStep e r) := rfl

/-- The end of a job leaves the queue, and as many refusals as jobs wait are all that the next job can meet. -/
theorem State.engineGoes_contentFault (f : Failure) : s.EndsFaulted e j f (State.engineGoes e (s.contentFault e j f)) := by
  have same : State.engineGoes e (s.contentFault e j f) = State.engineRun e s.recoder.queue.length (s.contentFault e j f) := by
    unfold State.contentFault
    split
    · have queue : s.recoder.queue = (s.holdEnding e j .faultTolerated).recoder.queue := by cases e <;> rfl
      rw [queue, State.engineRun_takeJob]
      rfl
    · have queue : s.recoder.queue = (s.faultEnding e j f).recoder.queue := by cases e <;> rfl
      rw [queue, State.engineRun_takeJob]
      rfl
  rw [same]
  exact s.contentFault_spec e j f

theorem State.engineStep_failed (phase : (s.recoder.engine e).phase = .coding j w) (f : Failure) :
    s.engineStep e (.failed f) = s.contentFault e j f := by
  unfold State.engineStep
  rw [phase]

theorem State.engineStep_done (phase : (s.recoder.engine e).phase = .coding j w) (data : List Byte) :
    s.engineStep e (.done data) = s.codeNext e j w data := by
  unfold State.engineStep
  rw [phase]

variable {d : SliceDesc} {data : List Byte} (named : w.source.slices[w.next]? = some d)
include named

theorem State.codeNext_malformed (unparsed : parseSlice d data = none) :
    s.codeNext e j w data = (s.holdEnding e j .malformed).takeJob e := by
  unfold State.codeNext
  rw [named]
  dsimp only
  rw [unparsed]

variable {blocks : List (List Coeff)} (parsed : parseSlice d data = some blocks)
include parsed

theorem State.codeNext_stopped {reason : StopReason}
    (coded : codeSlice (s.recoder.codeTable.getD []) s.settingsD.deadZone w.cutoff w.limits w.size w.next d
      (w.quants.getD w.next 0) blocks = .error reason) :
    s.codeNext e j w data = (s.setPhase e (.passEnded j { w with stopped := some reason }), none) := by
  unfold State.codeNext
  rw [named]
  dsimp only
  rw [parsed]
  dsimp only
  rw [coded]

theorem State.codeNext_coded {bytes : List Byte}
    (coded : codeSlice (s.recoder.codeTable.getD []) s.settingsD.deadZone w.cutoff w.limits w.size w.next d
      (w.quants.getD w.next 0) blocks = .ok bytes) :
    s.codeNext e j w data = (s.setScratch e ((s.recoder.engine e).scratch ++ bytes)).readSlice e j
      { w with next := w.next + 1, size := w.size + bytes.length } := by
  unfold State.codeNext
  rw [named]
  dsimp only
  rw [parsed]
  dsimp only
  rw [coded]

end

section
variable {s : State} {e : Engine} {j : Job} {w : PassWork}

/-! ### An engine that takes a job -/

theorem State.engineTakes_stays (h : (s.recoder.engine e).phase ≠ .idle ∨ s.recoder.queue = []) : s.engineTakes e = s := by
  have nothing : s.takeJob e = (s, none) := by
    unfold State.takeJob
    split
    next idle queue =>
      obtain busy | empty := h
      · exact absurd idle busy
      · rw [queue] at empty
        cases empty
    next => rfl
  rw [State.engineTakes, nothing]
  rfl

theorem State.engineTakes_begins {rest : List Job} (idle : (s.recoder.engine e).phase = .idle)
    (queue : s.recoder.queue = j :: rest) :
    s.engineTakes e = State.engineGoes e
      ((s.setRecoder { s.recoder with queue := rest }).startPass e j 1 (sourceOf ((s.ctx j.program).window.slots[j.slot]))
        (pass1Quants (sourceOf ((s.ctx j.program).window.slots[j.slot])).slices
          (sourceOf ((s.ctx j.program).window.slots[j.slot])).sourceSize j.budget) 64 []) := by
  rw [State.engineTakes, State.takeJob, idle, queue]

/-! ### Acceptance -/

theorem accepted_iff : accepted j w = true ↔ w.stopped = none ∧ w.size ≤ j.budget * 192 ∧ w.size ≤ j.room := by
  rw [accepted, Bool.and_eq_true, Bool.and_eq_true, Option.isNone_iff_eq_none, decide_eq_true_iff, decide_eq_true_iff, and_assoc]
  rfl

theorem accepted_eq_false (h : w.stopped ≠ none ∨ j.budget * 192 < w.size ∨ j.room < w.size) : accepted j w = false := by
  rw [← Bool.not_eq_true, accepted_iff]
  rintro ⟨whole, budget, room⟩
  obtain stopped | more | above := h
  · exact stopped whole
  · omega
  · omega

end

/-- Settles O50, from the coder's own laws and what each part of an engine's work can lead to. -/
theorem passEndJudgesTheResult : Obligations.PassEndJudgesTheResult := by
  unfold Obligations.PassEndJudgesTheResult
  refine ⟨fun table run level => ⟨fun _ _ => codeword_eq, entryCode_short table, entryCode_escape table⟩, fun table kept =>
    ⟨blockCodes_length table 0 kept, blockCodes_end table 0 kept, fun _ => blockCodes_first table 0, fun _ _ _ =>
      blockCodes_later table 0⟩, fun bits => ⟨packBits_length bits, fun _ => packBits_getLsbD bits⟩, ?coding, ?reads, ?takes, ?ends⟩
  case coding =>
    intro table deadZone cutoff limits size index d qOut blocks codes running
    have runs : ∀ n, runningSize (size + 4) [] (codes.take n) = running n := fun n => rfl
    refine ⟨fun within => ?_, fun n before bound reason after least most within named fits past => ?_⟩
    · have written := emitCodes_ok (base := size + 4) (bits := []) (codes := codes) within
      rw [codeSlice, show sliceCodes table deadZone d.qIn qOut cutoff blocks = codes from rfl, written]
      rfl
    · have stops := emitCodes_error (base := size + 4) (bits := []) least most within (limitExceeded_some named fits past)
      rw [codeSlice, show sliceCodes table deadZone d.qIn qOut cutoff blocks = codes from rfl, stops]
  case reads =>
    intro s e j w d pre post a data inFlight earlier behind agent phase named rest
    have coding : (rest.recoder.engine e).phase = .coding j w := phase
    have fails : ∀ c, c = .busError a.tag ∨ c = .completionTimeout a.tag →
        exec c s = .next (rest.deliver a.agent (.failed a.busFailure)) := fun c => exec_busEnd inFlight earlier behind
    have reads : a.kind = .read → exec (.accessCompletion a.tag data) s =
        .next (rest.deliver a.agent (.done (exactly a.length data))) := fun kind =>
      exec_accessCompletion_read inFlight earlier behind kind data
    rw [agent] at reads
    refine ⟨fun c ends => ⟨_, fails c ends, ?_⟩, fun kind whole => ?_⟩
    · rw [agent, State.deliver_engine, State.engineStep_failed coding]
      exact State.engineGoes_contentFault _
    · have step := reads kind
      rw [exactly_of_length whole, State.deliver_engine, State.engineStep_done coding] at step
      refine ⟨fun unparsed => ⟨_, step, ?_⟩, fun blocks parsed => ⟨fun reason stops => ?_, fun bytes fits => ⟨_, step, ?_⟩⟩⟩
      · rw [State.codeNext_malformed named unparsed]
        exact State.holdEnding_spec rest e j _
      · rw [step, State.codeNext_stopped (s := rest) named parsed stops]
        rfl
      · rw [State.codeNext_coded (s := rest) named parsed fits]
        exact State.readSlice_spec _ e j _
  case takes =>
    intro s e
    refine ⟨State.engineTakes_stays, fun j rest idle queue => ?_⟩
    rw [State.engineTakes_begins idle queue]
    exact State.startPass_spec _ e j 1 _ _ 64 []
  case ends =>
    intro s e j w phase pass
    have early : j.pass ≠ 3 := by omega
    have ends := exec_passEnd phase
    rw [if_neg early] at ends
    refine ⟨fun whole budget room => ⟨_, ?_, State.startBuild_spec s e j w⟩, fun refused => ?_⟩
    · rw [ends, if_pos (accepted_iff.2 ⟨whole, budget, room⟩)]
    · rw [accepted_eq_false refused, if_neg (by decide)] at ends
      refine ⟨fun first => ⟨_, ends.trans (if_pos first), State.startPass_spec s e j 2 _ _ _ _⟩, fun second other => ?_, fun second bi => ?_⟩
      · rw [if_neg (by omega), if_neg other] at ends
        exact ⟨_, ends, State.startPass_spec s e j 3 _ _ _ _⟩
      · rw [if_neg (by omega), if_pos bi] at ends
        exact ⟨_, ends, State.endsHeld_spec _⟩

end Sys2Proof.Machine

/-! PROOFS. A job's completion: where its cells stand, and where its pages go (4.6, R85; 6, R118 to R120). -/

namespace Sys2Proof.Machine

/-! ### Writes to places in any order -/

section
variable {m : CellMemory} {i : Nat}

theorem CellMemory.read_writeAll_other {cells : List (Nat × List Byte)} (outside : i ∉ cells.map Prod.fst) :
    CellMemory.read (m.writeAll cells) i = CellMemory.read m i := by
  induction cells generalizing m with
  | nil => rfl
  | cons x rest ih =>
    rw [List.map_cons, List.mem_cons, not_or] at outside
    obtain ⟨other, behind⟩ := outside
    exact (ih behind).trans (CellMemory.read_write_ne m other x.2)

/-- Writes to places each named once: each place reads what was written to it. -/
theorem CellMemory.read_writeAll_of_mem {cells : List (Nat × List Byte)} (once : (cells.map Prod.fst).Nodup) {c : List Byte}
    (mem : (i, c) ∈ cells) : CellMemory.read (m.writeAll cells) i = some c := by
  induction cells generalizing m with
  | nil => cases mem
  | cons x rest ih =>
    rw [List.map_cons, List.nodup_cons] at once
    obtain ⟨fresh, once⟩ := once
    obtain rfl | behind := List.mem_cons.1 mem
    · exact (CellMemory.read_writeAll_other fresh).trans (CellMemory.read_write_same m i c)
    · exact ih once behind

theorem CellMemory.read_ofPages_writeAll {pages : List Nat} {old : CellMemory} (other : pageOfPlace i ∉ pages) :
    CellMemory.read (m.writeAll (old.ofPages pages)) i = CellMemory.read m i := by
  refine CellMemory.read_writeAll_other fun mem => ?_
  obtain ⟨x, kept, rfl⟩ := List.mem_map.1 mem
  obtain ⟨-, named⟩ := List.mem_filter.1 kept
  exact other (List.contains_iff_mem.1 named)

end

/-! ### The places of a job's cells -/

/-- R118: the place of the k-th cell written to some pages, 20 to a page. -/
def cellPlace (pages : List Nat) (k : Nat) : Nat := placeIndex (pages.getD (k / 20) 0) (k % 20)

theorem pageOfPlace_cellPlace (pages : List Nat) (k : Nat) : pageOfPlace (cellPlace pages k) = pages.getD (k / 20) 0 :=
  pageOfPlace_placeIndex _ (Nat.mod_lt k (by decide))

theorem placedEntries_eq (pages : List Nat) (n : Nat) :
    placedEntries pages n = (List.range n).map fun k => .stored (pages.getD (k / 20) 0) (k % 20) := rfl

theorem placeCells_places (pages : List Nat) (cells : List (List Byte)) :
    (placeCells pages cells).map Prod.fst = (List.range cells.length).map (cellPlace pages) := by
  rw [placeCells, List.map_map]
  apply List.ext_getElem (by simp)
  intro i _ _
  simp [cellPlace, Config.placesPerPage]

theorem mem_placeCells {pages : List Nat} {cells : List (List Byte)} {k : Nat} {c : List Byte} (here : cells[k]? = some c) :
    (cellPlace pages k, c) ∈ placeCells pages cells :=
  List.mem_map.2 ⟨(c, k), List.mem_zipIdx_iff_getElem?.2 here, rfl⟩

/-- Only the pages that the cells reach matter. -/
theorem getD_take_of_reached {pages : List Nat} {n k : Nat} (inside : k < n) :
    (pages.take ((n + 19) / 20)).getD (k / 20) 0 = pages.getD (k / 20) 0 := by
  rw [List.getD_eq_getElem?_getD, List.getD_eq_getElem?_getD, List.getElem?_take_of_lt (by omega)]

theorem placedEntries_take (pages : List Nat) (n : Nat) : placedEntries (pages.take ((n + 19) / 20)) n = placedEntries pages n :=
  List.map_congr_left fun k mem => by rw [Config.placesPerPage, getD_take_of_reached (List.mem_range.1 mem)]

section
variable {pages : List Nat} {n : Nat} (enough : n ≤ 20 * pages.length)
include enough

theorem page_of_cell_mem {k : Nat} (inside : k < n) : pages.getD (k / 20) 0 ∈ pages := by
  have reached : k / 20 < pages.length := by omega
  rw [List.getD_eq_getElem _ _ reached]
  exact List.getElem_mem reached

theorem pageOfPlace_mem {place : Nat} (mem : place ∈ (List.range n).map (cellPlace pages)) : pageOfPlace place ∈ pages := by
  obtain ⟨k, inside, rfl⟩ := List.mem_map.1 mem
  rw [pageOfPlace_cellPlace]
  exact page_of_cell_mem enough (List.mem_range.1 inside)

/-- R118: cells written to different pages stand in different places. -/
theorem cellPlaces_nodup (once : pages.Nodup) : ((List.range n).map (cellPlace pages)).Nodup := by
  refine List.Nodup.map_on (fun a ha b hb same => ?_) List.nodup_range
  have la := List.mem_range.1 ha
  have lb := List.mem_range.1 hb
  have page : pages.getD (a / 20) 0 = pages.getD (b / 20) 0 := by
    rw [← pageOfPlace_cellPlace, ← pageOfPlace_cellPlace, same]
  have ra : a / 20 < pages.length := by omega
  have rb : b / 20 < pages.length := by omega
  have index : a / 20 = b / 20 := by
    rw [List.getD_eq_getElem _ _ ra, List.getD_eq_getElem _ _ rb] at page
    exact (List.Nodup.getElem_inj_iff once).1 page
  have place : a % 20 = b % 20 := by
    rw [cellPlace, cellPlace, page] at same
    exact Nat.add_left_cancel same
  omega

end

/-! ### What a completion leaves -/

/-- R85, R119: the store with a job's cells written and the pages no cell was written to returned. -/
def Store.jobWritten (st : Store) (c : JobCells) : Store :=
  ({ st with cells := st.cells.writeAll (placeCells c.nowPages c.now ++ placeCells c.laterPages c.later) } : Store).giveBack
    c.unwritten

/-- R148, R149: the line with a job's cells linked and its deferred cells handed over. -/
def Line.jobLinked (l : Line) (j : Job) (c : JobCells) : Line :=
  (l.linkJob j.program j.count (placedEntries c.nowPages c.now.length) c.nowPages).defer j.program
    (placedEntries c.laterPages c.later.length) c.laterPages

/-- R85, R87: the recoder with the job of an engine completed in n cells. -/
def Recoder.jobCompleted (r : Recoder) (e : Engine) (j : Job) (b : Build) (n : Nat) : Recoder :=
  { r.setEngine e { r.engine e with phase := .idle } with
    counters := r.counters.put j.program (j.count + BitVec.ofNat 4 n)
    spare := r.spare + (j.budget - n)
    figures := r.figures.put j.program (some { outcome := some .ok, pass := j.pass, cells := n, meanQ := b.meanQ }) }

/-- R85: all that a job's completion changes before the engine takes its next job. -/
theorem State.completeJob_eq (s : State) (e : Engine) (j : Job) (b : Build) {cells : List (List Byte)}
    (built : s.buildCells e j b = cells) : s.completeJob e j b = { s with
      store := s.store.jobWritten (divideCells j.budget j.draw j.pages cells)
      line := s.line.jobLinked j (divideCells j.budget j.draw j.pages cells)
      recoder := s.recoder.jobCompleted e j b cells.length
      controller := { s.controller with
        reports := s.controller.reports ++
          [{ program := j.program, slot := j.slot, takeNumber := j.takeNumber, interval := j.interval
             body := .finish .ok j.pass b.size cells.length b.meanQ j.debt }] }
      allocator := { s.allocator with
        reports := s.allocator.reports ++
          [{ program := j.program, interval := j.interval, outcome := .ok, pass := j.pass, size := b.size
             cells := cells.length, meanQ := b.meanQ, debt := j.debt }] } } := by
  unfold State.completeJob
  rw [built]
  dsimp only
  generalize divideCells j.budget j.draw j.pages cells = c
  cases e <;>
    simp only [State.linkCells, State.setStore, State.setLine, State.setRecoder, State.setFigures, State.sendReport
      , State.sendCompletion, State.setController, State.setAllocator, State.setPhase, State.returnPages, Recoder.setEngine
      , Recoder.engine, Store.jobWritten, Line.jobLinked, Recoder.jobCompleted]

theorem Line.jobLinked_parts (l : Line) (j : Job) (c : JobCells) : (l.jobLinked j c).building.look j.program =
    { l.building.look j.program with
      picture := replacePlaceholder j.count (placedEntries c.nowPages c.now.length) (l.building.look j.program).picture } :=
  PerProgram.look_modify_same _ _ _

theorem exec_jobCompletion {s : State} {e : Engine} {j : Job} {b : Build} (phase : (s.recoder.engine e).phase = .building j b) :
    exec (.jobCompletion e) s = .next ((s.completeJob e j b).engineTakes e) := by
  change execJobCompletion e s = _
  rw [execJobCompletion, phase]

section
variable (st : Store) (c : JobCells)

/-- R119, R123: the pages that come back unmarked join the tail of the free list in ascending order. -/
theorem Store.jobWritten_free : ∃ free, (st.jobWritten c).free = st.free ++ free ∧ free.Pairwise (· < ·) ∧
    ∀ p, p ∈ free ↔ p ∈ c.unwritten ∧ p ∉ st.marks :=
  ⟨_, Store.giveBack_free _ _, (sortPages_rising c.unwritten).filter _, fun p => by simp⟩

theorem Store.mem_jobWritten_retired (p : Nat) :
    p ∈ (st.jobWritten c).retired ↔ p ∈ st.retired ∨ (p ∈ c.unwritten ∧ p ∈ st.marks) := Store.mem_giveBack_retired _ _ p

theorem Store.mem_jobWritten_marks (p : Nat) : p ∈ (st.jobWritten c).marks ↔ p ∈ st.marks ∧ p ∉ c.unwritten :=
  Store.mem_giveBack_marks _ _ p

theorem Store.jobWritten_unwritten {place : Nat} (back : pageOfPlace place ∈ c.unwritten) :
    (st.jobWritten c).cells.read place = none := (Store.giveBack_read _ _ place).trans (if_pos back)

theorem Store.jobWritten_cells {place : Nat} (kept : pageOfPlace place ∉ c.unwritten) :
    (st.jobWritten c).cells.read place =
      (st.cells.writeAll (placeCells c.nowPages c.now ++ placeCells c.laterPages c.later)).read place :=
  (Store.giveBack_read _ _ place).trans (if_neg kept)

theorem Store.jobWritten_residue {place : Nat} (kept : pageOfPlace place ∉ c.unwritten) :
    (st.jobWritten c).residue.read place = st.residue.read place :=
  CellMemory.read_ofPages_writeAll fun back => kept (mem_sortPages.1 back)

end

/-! ### Where the cells stand -/

section
variable {st : Store} {c : JobCells}

/-- The places of the list entries of a completed job. -/
def JobCells.places (c : JobCells) : List Nat :=
  (List.range c.now.length).map (cellPlace c.nowPages) ++ (List.range c.later.length).map (cellPlace c.laterPages)

theorem JobCells.written_places (c : JobCells) :
    (placeCells c.nowPages c.now ++ placeCells c.laterPages c.later).map Prod.fst = c.places := by
  rw [List.map_append, placeCells_places, placeCells_places, JobCells.places]

/-- A place that no entry names keeps its cell. -/
theorem Store.jobWritten_other {place : Nat} (kept : pageOfPlace place ∉ c.unwritten)
    (other : ∀ page i, Entry.stored page i ∈ placedEntries c.nowPages c.now.length ++ placedEntries c.laterPages c.later.length →
      placeIndex page i ≠ place) :
    (st.jobWritten c).cells.read place = st.cells.read place := by
  rw [Store.jobWritten_cells st c kept]
  refine CellMemory.read_writeAll_other fun mem => ?_
  rw [c.written_places, JobCells.places, List.mem_append, List.mem_map, List.mem_map] at mem
  obtain ⟨k, inside, place⟩ | ⟨k, inside, place⟩ := mem
  · exact other _ _ (List.mem_append_left _ (List.mem_map.2 ⟨k, inside, rfl⟩)) place
  · exact other _ _ (List.mem_append_right _ (List.mem_map.2 ⟨k, inside, rfl⟩)) place

section
variable (room : c.now.length ≤ 20 * c.nowPages.length) (roomLater : c.later.length ≤ 20 * c.laterPages.length)
  (once : (c.nowPages ++ c.laterPages ++ c.unwritten).Nodup)
include room roomLater once

theorem JobCells.places_nodup : c.places.Nodup := by
  have pages := (List.nodup_append.1 once).1
  obtain ⟨here, there, apart⟩ := List.nodup_append.1 pages
  refine List.nodup_append.2 ⟨cellPlaces_nodup room here, cellPlaces_nodup roomLater there, fun a ha b hb same => ?_⟩
  exact apart _ (pageOfPlace_mem room ha) _ (pageOfPlace_mem roomLater hb) (congrArg pageOfPlace same)

omit once in
theorem JobCells.page_of_place {place : Nat} (mem : place ∈ c.places) : pageOfPlace place ∈ c.nowPages ++ c.laterPages := by
  obtain here | there := List.mem_append.1 mem
  · exact List.mem_append_left _ (pageOfPlace_mem room here)
  · exact List.mem_append_right _ (pageOfPlace_mem roomLater there)

/-- R118: each place reads the cell that was written to it. -/
theorem Store.jobWritten_reads {place : Nat} {cell : List Byte}
    (mem : (place, cell) ∈ placeCells c.nowPages c.now ++ placeCells c.laterPages c.later) :
    (st.jobWritten c).cells.read place = some cell := by
  have place_mem : place ∈ c.places := by
    rw [← c.written_places]
    exact List.mem_map_of_mem mem
  have kept : pageOfPlace place ∉ c.unwritten := fun back =>
    (List.nodup_append.1 once).2.2 _ (JobCells.page_of_place room roomLater place_mem) _ back rfl
  rw [Store.jobWritten_cells st c kept]
  exact CellMemory.read_writeAll_of_mem (c.written_places ▸ JobCells.places_nodup room roomLater once) mem

/-- R118, R148: the list entries name the cells in order. -/
theorem Store.jobWritten_list :
    ((List.range c.now.length).map fun k => (st.jobWritten c).cells.read (cellPlace c.nowPages k)) ++
      ((List.range c.later.length).map fun k => (st.jobWritten c).cells.read (cellPlace c.laterPages k)) =
      (c.now ++ c.later).map some := by
  rw [List.map_append]
  congr 1
  · apply List.ext_getElem (by simp)
    intro k h _
    have bound : k < c.now.length := by simpa using h
    simp only [List.getElem_map, List.getElem_range]
    exact Store.jobWritten_reads room roomLater once (List.mem_append_left _ (mem_placeCells (List.getElem?_eq_getElem bound)))
  · apply List.ext_getElem (by simp)
    intro k h _
    have bound : k < c.later.length := by simpa using h
    simp only [List.getElem_map, List.getElem_range]
    exact Store.jobWritten_reads room roomLater once (List.mem_append_right _ (mem_placeCells (List.getElem?_eq_getElem bound)))

end

end

/-! ### The division of a job's cells and pages -/

section
variable {budget draw : Nat} {pages : List Nat} {cells : List (List Byte)}

theorem divideCells_eq (budget draw : Nat) (pages : List Nat) (cells : List (List Byte)) :
    divideCells budget draw pages cells =
      { now := cells.take (budget + draw)
        later := cells.drop (budget + draw)
        nowPages := (pages.take ((budget + draw + 19) / 20)).take (((cells.take (budget + draw)).length + 19) / 20)
        laterPages := (pages.drop ((budget + draw + 19) / 20)).take (((cells.drop (budget + draw)).length + 19) / 20)
        unwritten := (pages.take ((budget + draw + 19) / 20)).drop (((cells.take (budget + draw)).length + 19) / 20) ++
          (pages.drop ((budget + draw + 19) / 20)).drop (((cells.drop (budget + draw)).length + 19) / 20) } := rfl

/-- R118 to R120: every page of a job passes on exactly once. -/
theorem divideCells_perm (budget draw : Nat) (pages : List Nat) (cells : List (List Byte)) :
    ((divideCells budget draw pages cells).nowPages ++ (divideCells budget draw pages cells).laterPages ++
      (divideCells budget draw pages cells).unwritten).Perm pages := by
  rw [divideCells_eq]
  generalize ((cells.take (budget + draw)).length + 19) / 20 = used
  generalize ((cells.drop (budget + draw)).length + 19) / 20 = usedLater
  generalize own : (budget + draw + 19) / 20 = n
  dsimp only
  have split : pages = (pages.take n).take used ++ (pages.take n).drop used ++
      ((pages.drop n).take usedLater ++ (pages.drop n).drop usedLater) := by
    rw [List.take_append_drop, List.take_append_drop, List.take_append_drop]
  conv_rhs => rw [split]
  rw [List.append_assoc, List.append_assoc]
  refine List.Perm.append_left _ ?_
  rw [← List.append_assoc, ← List.append_assoc]
  exact (List.perm_append_comm).append_right _

/-- R84: the pages that a build requests have room for all of its cells. -/
theorem divideCells_room (enough : (budget + draw + 19) / 20 + ((cells.length - (budget + draw)) + 19) / 20 ≤ pages.length) :
    (divideCells budget draw pages cells).now.length ≤ 20 * (divideCells budget draw pages cells).nowPages.length ∧
      (divideCells budget draw pages cells).later.length ≤ 20 * (divideCells budget draw pages cells).laterPages.length := by
  rw [divideCells_eq]
  simp only [List.length_take, List.length_drop]
  omega

end

/-- Settles O52, from the division of the cells and pages and what a completion writes and returns. -/
theorem jobCompletionLinksItsCells : Obligations.JobCompletionLinksItsCells := by
  unfold Obligations.JobCompletionLinksItsCells
  intro s e j b phase cells here later mine theirs written deferred unwritten
  have built : s.buildCells e j b = cells := rfl
  have nowLength : (cells.take (j.budget + j.draw)).length = Nat.min (j.budget + j.draw) cells.length := List.length_take
  have laterLength : (cells.drop (j.budget + j.draw)).length = cells.length - (j.budget + j.draw) := List.length_drop
  obtain ⟨c, division⟩ : ∃ c, divideCells j.budget j.draw j.pages cells = c := ⟨_, rfl⟩
  have completed := State.completeJob_eq s e j b built
  have perm := divideCells_perm j.budget j.draw j.pages cells
  have fits := divideCells_room (budget := j.budget) (draw := j.draw) (pages := j.pages) (cells := cells)
  rw [division] at completed perm fits
  rw [divideCells_eq] at division
  have now : c.now = cells.take (j.budget + j.draw) := (congrArg JobCells.now division :).symm
  have laterCells : c.later = cells.drop (j.budget + j.draw) := (congrArg JobCells.later division :).symm
  have nowPages : c.nowPages = mine.take written :=
    (congrArg JobCells.nowPages division :).symm.trans (by dsimp only; rw [nowLength])
  have laterPages : c.laterPages = theirs.take deferred :=
    (congrArg JobCells.laterPages division :).symm.trans (by dsimp only; rw [laterLength])
  have back : c.unwritten = unwritten :=
    (congrArg JobCells.unwritten division :).symm.trans (by dsimp only; rw [nowLength, laterLength])
  have hereEntries : placedEntries c.nowPages c.now.length = here := by
    rw [nowPages, now, ← show _ = written from congrArg (fun n => (n + 19) / 20) nowLength, placedEntries_take]
  have laterEntries : placedEntries c.laterPages c.later.length = later := by
    rw [laterPages, laterCells, ← show _ = deferred from congrArg (fun n => (n + 19) / 20) laterLength, placedEntries_take]
  clear_value cells here later written deferred unwritten
  subst back hereEntries laterEntries
  have cellsInOrder : c.now ++ c.later = cells := by rw [now, laterCells, List.take_append_drop]
  have parts := s.line.jobLinked_parts j c
  refine ⟨s.completeJob e j b, exec_jobCompletion phase, ?_⟩
  rw [completed]
  refine ⟨congrArg (s.line.buildingPages ++ ·) nowPages, congrArg (s.line.holdingPages ++ ·) laterPages,
    s.store.jobWritten_free c, s.store.mem_jobWritten_retired c, s.store.mem_jobWritten_marks c,
    (congrArg Parts.picture parts :), (congrArg Parts.deferred parts :), (congrArg Parts.side parts :),
    PerProgram.look_modify_same _ _ _, fun q other => ⟨PerProgram.look_modify_ne _ other _, PerProgram.look_modify_ne _ other _⟩,
    fun once enough => ?list, rfl, rfl, fun place => s.store.jobWritten_unwritten c,
    fun place kept => ⟨s.store.jobWritten_residue c kept, Store.jobWritten_other kept⟩, rfl, rfl, rfl, rfl⟩
  case list =>
    obtain ⟨room, roomLater⟩ := fits enough
    have pagesOnce : (c.nowPages ++ c.laterPages ++ c.unwritten).Nodup := perm.nodup_iff.2 once
    refine ⟨?_, fun place other => ?_⟩
    · rw [List.map_append, placedEntries_eq, placedEntries_eq, List.map_map, List.map_map, ← cellsInOrder]
      exact Store.jobWritten_list room roomLater pagesOnce
    · have apart : pageOfPlace place ∉ c.nowPages ++ c.laterPages ++ c.unwritten := fun mem => other (perm.mem_iff.1 mem)
      rw [List.mem_append, not_or] at apart
      obtain ⟨unnamed, kept⟩ := apart
      refine (Store.jobWritten_cells s.store c kept).trans (CellMemory.read_writeAll_other fun mem => unnamed ?_)
      rw [c.written_places] at mem
      exact JobCells.page_of_place room roomLater mem

end Sys2Proof.Machine

/-! PROOFS. The status parts, the job queue, the join of the side messages and their reservation (1.1, R6; 4.2, R69; 7.5, R139, R140). -/

namespace Sys2Proof.Machine

/-! ### The bytes of a status part -/

section
variable (c : ProgramCtx) (debt delivered : Nat) (r : ParityRecord) (latch : Bool)

/-- R6: the fields of a status part behind each other. -/
theorem statusBytes_eq : statusBytes c debt delivered r latch =
    leBytes 1 (programStateCode c.state) ++ (leBytes 1 c.window.count ++ (leBytes 1 debt ++ (leBytes 1 (parityCode r.active) ++
      (leBytes 1 (boolNat r.switchHeld) ++ (leBytes 1 (boolNat latch) ++ (leBytes 1 (lastOutcomeCode c.lastOutcome) ++
      (leBytes 1 (refusalCode c.refused) ++ (leBytes 8 c.nextRecord.toNat ++ (leBytes 4 delivered ++
      (leBytes 4 (if c.lastOutcome.isNone then 0 else c.lastInterval.toNat) ++ zeros 40)))))))))) := by
  simp only [statusBytes, List.append_assoc]

theorem statusBytes_length : (statusBytes c debt delivered r latch).length = 64 := by
  simp only [statusBytes, List.length_append, leBytes_length, zeros, List.length_replicate]

theorem parityCode_lt (q : Option Parity) : parityCode q < 256 := by
  obtain _ | _ | _ := q <;> decide

theorem refusalCode_lt (x : StartRefusal) : refusalCode x < 256 := by cases x <;> decide

theorem boolNat_lt (b : Bool) : boolNat b < 256 := by cases b <;> decide

theorem statusBytes_fields :
    let bytes := statusBytes c debt delivered r latch
    leNat bytes 0x00 1 = programStateCode c.state ∧ leNat bytes 0x01 1 = c.window.count % 256 ∧
      leNat bytes 0x02 1 = debt % 256 ∧ leNat bytes 0x03 1 = parityCode r.active ∧
      leNat bytes 0x04 1 = (if r.switchHeld then 1 else 0) ∧ leNat bytes 0x05 1 = (if latch then 1 else 0) ∧
      leNat bytes 0x06 1 = (c.lastOutcome.map outcomeCode).getD 255 ∧ leNat bytes 0x07 1 = refusalCode c.refused ∧
      leNat bytes 0x08 8 = c.nextRecord.toNat ∧ leNat bytes 0x10 4 = delivered % 4294967296 ∧
      leNat bytes 0x14 4 = (if c.lastOutcome = none then 0 else c.lastInterval.toNat) := by
  have state := Nat.mod_eq_of_lt (programStateCode_lt c.state)
  have parity := Nat.mod_eq_of_lt (parityCode_lt r.active)
  have held : boolNat r.switchHeld % 256 = if r.switchHeld then 1 else 0 := Nat.mod_eq_of_lt (boolNat_lt _)
  have latched : boolNat latch % 256 = if latch then 1 else 0 := Nat.mod_eq_of_lt (boolNat_lt _)
  have outcome := Nat.mod_eq_of_lt (lastOutcomeCode_lt c.lastOutcome)
  rw [lastOutcomeCode_eq] at outcome
  have refused := Nat.mod_eq_of_lt (refusalCode_lt c.refused)
  have record : c.nextRecord.toNat % 18446744073709551616 = c.nextRecord.toNat := Nat.mod_eq_of_lt c.nextRecord.isLt
  have interval : (if c.lastOutcome.isNone then 0 else c.lastInterval.toNat) % 4294967296 =
      if c.lastOutcome = none then 0 else c.lastInterval.toNat := by
    simp only [Option.isNone_iff_eq_none]
    split
    · rfl
    · exact Nat.mod_eq_of_lt c.lastInterval.isLt
  simp only [statusBytes_eq, Nat.reduceLeDiff, Nat.reduceSub, Nat.le_refl, leNat_behind_field, leNat_field, Nat.reducePow,
    state, parity, held, latched, outcome, refused, record, interval, lastOutcomeCode_eq, and_self]

theorem statusBytes_tail {i : Nat} (behind : 0x18 ≤ i) : byteAt (statusBytes c debt delivered r latch) i = 0 := by
  rw [statusBytes_eq]
  iterate 11 rw [byteAt_behind_field (by omega)]
  exact byteAt_zeros _ _

end

/-! ### The round of status parts -/

section
variable {s : State} {p : Program} {rest : List Program}

theorem State.issueStatus_eq (s : State) (p : Program) : s.issueStatus p = s.issue (s.statusRequest p) := by
  rw [State.issueStatus, writeRequest, statusBytes_length]
  rfl

theorem State.statusRun_nil (s : State) : State.statusRun [] s = { s with controller := { s.controller with
    statusTodo := [], halt := if s.controller.halt = some .status then some .done else s.controller.halt } } := by
  unfold State.statusRun
  split <;> rfl

theorem State.statusRun_of_ok {region : Byte} (passes : checkAccess s.link.regions (s.statusRequest p) = .ok region) :
    State.statusRun (p :: rest) s = { s with
      controller := { s.controller with statusTodo := p :: rest }
      link := { s.link with
        accesses := s.link.accesses ++
          [{ tag := s.link.nextTag, agent := .status, kind := .write, addr := (s.statusRequest p).addr, length := 64
             key := some 0, region := region, data := (s.statusRequest p).data }]
        nextTag := s.link.nextTag + 1 } } := by
  rw [State.statusRun, State.issueStatus_eq, State.issue_of_ok (region := region) passes]
  rfl

theorem State.statusRun_of_error {e : AccessResult × Byte}
    (refused : checkAccess s.link.regions (s.statusRequest p) = .error e) :
    State.statusRun (p :: rest) s = State.statusRun rest (s.statusNoted p) := by
  rw [State.statusRun, State.issueStatus_eq, State.issue_of_error (result := e.1) (region := e.2) refused]
  rfl

theorem State.startStatus_begins (none_left : s.controller.statusTodo = []) : s.startStatus = State.statusRun programs s := by
  rw [State.startStatus, none_left]

theorem State.startStatus_waits (left : s.controller.statusTodo ≠ []) : s.startStatus =
    { s with controller := { s.controller with statusTodo := s.controller.statusTodo ++ programs } } := by
  unfold State.startStatus
  split
  next none_left => exact absurd none_left left
  next => rfl

theorem State.statusReply_done (todo : s.controller.statusTodo = p :: rest) (data : List Byte) :
    s.statusReply (.done data) = s.statusRun rest := by
  unfold State.statusReply
  rw [todo]

theorem State.statusReply_failed (todo : s.controller.statusTodo = p :: rest) (f : Failure) :
    s.statusReply (.failed f) = (s.statusNoted p).statusRun rest := by
  unfold State.statusReply
  rw [todo]
  rfl

/-- What a round of status parts changes: the parts still to be written, their notes, the controller's HALT work that waits for
them, and the accesses in flight. -/
structure StatusFrame (s t : State) : Prop where
  rest : t = { s with controller := t.controller, link := t.link }
  controller : t.controller = { s.controller with
    statusTodo := t.controller.statusTodo, halt := t.controller.halt, notes := t.controller.notes }

theorem StatusFrame.refl (s : State) : StatusFrame s s := ⟨rfl, rfl⟩

theorem StatusFrame.trans {r s t : State} (a : StatusFrame r s) (b : StatusFrame s t) : StatusFrame r t where
  rest := by
    have h := b.rest
    rw [a.rest] at h
    exact h
  controller := by
    have h := b.controller
    rw [a.controller] at h
    exact h

theorem StatusFrame.statusRun : ∀ (todo : List Program) (s : State), StatusFrame s (State.statusRun todo s)
  | [], s => by
    rw [State.statusRun_nil]
    exact ⟨rfl, rfl⟩
  | p :: rest, s => by
    obtain ⟨region, passes⟩ | ⟨e, refused⟩ : (∃ region, checkAccess s.link.regions (s.statusRequest p) = .ok region) ∨
        ∃ e, checkAccess s.link.regions (s.statusRequest p) = .error e := by
      cases checkAccess s.link.regions (s.statusRequest p) with
      | ok region => exact .inl ⟨region, rfl⟩
      | error e => exact .inr ⟨e, rfl⟩
    · rw [State.statusRun_of_ok passes]
      exact ⟨rfl, rfl⟩
    · rw [State.statusRun_of_error refused]
      exact StatusFrame.trans (s := s.statusNoted p) ⟨rfl, rfl⟩ (StatusFrame.statusRun rest _)

theorem StatusFrame.startStatus (s : State) : StatusFrame s s.startStatus := by
  obtain none_left | left := eq_or_ne s.controller.statusTodo []
  · rw [State.startStatus_begins none_left]
    exact StatusFrame.statusRun _ s
  · rw [State.startStatus_waits left]
    exact ⟨rfl, rfl⟩

end

/-! ### The queue of jobs -/

/-- R69: the order of the queue: budgets fall, and programs with equal budgets rise. -/
def Job.ahead (j k : Job) : Prop := k.budget < j.budget ∨ (k.budget = j.budget ∧ j.program < k.program)

theorem Job.ahead_trans {i j k : Job} (a : i.ahead j) (b : j.ahead k) : i.ahead k := by
  simp only [Job.ahead, Fin.lt_def] at *
  omega

theorem Job.ahead_or {j k : Job} (other : j.program ≠ k.program) : j.ahead k ∨ k.ahead j := by
  have values := Fin.val_ne_of_ne other
  simp only [Job.ahead, Fin.lt_def]
  omega

theorem insertJob_perm (j : Job) (queue : List Job) : (insertJob j queue).Perm (j :: queue) := by
  induction queue with
  | nil => exact List.Perm.refl _
  | cons k rest ih =>
    rw [insertJob]
    split
    · exact List.Perm.refl _
    · exact (ih.cons k).trans (List.Perm.swap j k rest)

theorem insertJob_sorted {j : Job} {queue : List Job} (sorted : queue.Pairwise Job.ahead)
    (other : ∀ k ∈ queue, j.program ≠ k.program) : (insertJob j queue).Pairwise Job.ahead := by
  induction queue with
  | nil => exact List.pairwise_singleton _ _
  | cons k rest ih =>
    obtain ⟨first, behind⟩ := List.pairwise_cons.1 sorted
    rw [List.forall_mem_cons] at other
    rw [insertJob]
    split
    next here =>
      exact List.pairwise_cons.2 ⟨List.forall_mem_cons.2 ⟨here, fun x mem => Job.ahead_trans here (first x mem)⟩, sorted⟩
    next later =>
      refine List.pairwise_cons.2 ⟨fun x mem => ?_, ih behind other.2⟩
      obtain rfl | mem := List.mem_cons.1 ((insertJob_perm j rest).mem_iff.1 mem)
      · exact (Job.ahead_or other.1).resolve_left later
      · exact first x mem

/-- R69: the queue with some jobs put in their places. -/
def queueJobs (jobs queue : List Job) : List Job := jobs.foldl (fun queue j => insertJob j queue) queue

theorem queueJobs_perm (jobs queue : List Job) : (queueJobs jobs queue).Perm (queue ++ jobs) := by
  induction jobs generalizing queue with
  | nil => rw [List.append_nil]; exact List.Perm.refl _
  | cons j jobs ih =>
    refine (ih (insertJob j queue)).trans (((insertJob_perm j queue).append_right jobs).trans ?_)
    exact List.perm_middle.symm

theorem queueJobs_sorted {jobs queue : List Job} (sorted : queue.Pairwise Job.ahead)
    (once : ((queue ++ jobs).map Job.program).Nodup) : (queueJobs jobs queue).Pairwise Job.ahead := by
  induction jobs generalizing queue with
  | nil => exact sorted
  | cons j jobs ih =>
    have moved : (insertJob j queue ++ jobs).Perm (queue ++ j :: jobs) :=
      ((insertJob_perm j queue).append_right jobs).trans List.perm_middle.symm
    refine ih (insertJob_sorted sorted fun k mem => ?_) ((moved.map Job.program).nodup_iff.2 once)
    rw [List.map_append, List.map_cons] at once
    exact fun same => (List.nodup_append.1 once).2.2 _ (List.mem_map_of_mem mem) _ List.mem_cons_self same.symm

/-! ### The join of the side messages -/

theorem Disposition.isCarried_iff (d : Disposition) : d.isCarried = true ↔ d = .carried ∨ d = .carriedCue := by
  cases d <;> simp [Disposition.isCarried]

section
variable {sMax : Nat} {p : Program} {key : Byte} {index : Nat} {d : SlotSide} {sides : List SlotSide} {queue : List Message}

theorem joinSides_stays (kept : d.disposition.isCarried = false) : joinSides sMax p key index (d :: sides) queue =
    (d :: (joinSides sMax p key (index + 1) sides queue).1, (joinSides sMax p key (index + 1) sides queue).2) := by
  simp only [joinSides, kept, Bool.not_false, if_true]

theorem joinSides_no_capacity (carried : d.disposition.isCarried = true) (closed : sMax = 0) :
    joinSides sMax p key index (d :: sides) queue =
      ({ d with disposition := .droppedNoCapacity } :: (joinSides sMax p key (index + 1) sides queue).1
        , (joinSides sMax p key (index + 1) sides queue).2) := by
  simp only [joinSides, carried, closed, Bool.not_true, if_true]
  rfl

theorem joinSides_full (carried : d.disposition.isCarried = true) (capacity : sMax ≠ 0) (full : 32 ≤ queue.length) :
    joinSides sMax p key index (d :: sides) queue =
      ({ d with disposition := .droppedQueueFull } :: (joinSides sMax p key (index + 1) sides queue).1
        , (joinSides sMax p key (index + 1) sides queue).2) := by
  simp only [joinSides, carried, capacity, Config.sideQueueLimit, full, Bool.not_true, if_false, if_true]
  rfl

theorem joinSides_joins (carried : d.disposition.isCarried = true) (capacity : sMax ≠ 0) (room : queue.length < 32) :
    joinSides sMax p key index (d :: sides) queue =
      let joined := joinSides sMax p key (index + 1) sides
        (queue ++ [{ program := p, key := key, index := index, address := d.address, length := d.length }])
      (d :: joined.1, joined.2) := by
  simp only [joinSides, carried, capacity, Config.sideQueueLimit, Nat.not_le.2 room, Bool.not_true, if_false]
  rfl

end

theorem joinSides_closed {p : Program} {key : Byte} (sides : List SlotSide) (index : Nat) (queue : List Message) :
    (joinSides 0 p key index sides queue).2 = queue ∧ (joinSides 0 p key index sides queue).1 = sides.map fun d =>
      if d.disposition = .carried ∨ d.disposition = .carriedCue then { d with disposition := .droppedNoCapacity } else d := by
  induction sides generalizing index with
  | nil => exact ⟨rfl, rfl⟩
  | cons d rest ih =>
    obtain ⟨same, dispositions⟩ := ih (index + 1)
    rw [List.map_cons]
    cases carried : d.disposition.isCarried with
    | false =>
      have kept := mt (Disposition.isCarried_iff _).2 (by rw [carried]; exact nofun)
      rw [joinSides_stays carried, if_neg kept]
      exact ⟨same, congrArg (d :: ·) dispositions⟩
    | true =>
      rw [joinSides_no_capacity carried rfl, if_pos ((Disposition.isCarried_iff _).1 carried)]
      exact ⟨same, congrArg (_ :: ·) dispositions⟩

/-- R139: the messages of a picture's carried entries from some index on. -/
def carriedMessages (p : Program) (key : Byte) (index : Nat) (sides : List SlotSide) : List Message :=
  ((sides.zipIdx index).filter fun x => x.1.disposition = .carried ∨ x.1.disposition = .carriedCue).map fun x =>
    { program := p, key := key, index := x.2, address := x.1.address, length := x.1.length }

section
variable {p : Program} {key : Byte} {index : Nat} {d : SlotSide} {sides : List SlotSide}

theorem carriedMessages_stays (kept : ¬(d.disposition = .carried ∨ d.disposition = .carriedCue)) :
    carriedMessages p key index (d :: sides) = carriedMessages p key (index + 1) sides := by
  rw [carriedMessages, List.zipIdx_cons, List.filter_cons_of_neg (by simpa using kept), carriedMessages]

theorem carriedMessages_carries (carried : d.disposition = .carried ∨ d.disposition = .carriedCue) :
    carriedMessages p key index (d :: sides) =
      { program := p, key := key, index := index, address := d.address, length := d.length } ::
        carriedMessages p key (index + 1) sides := by
  rw [carriedMessages, List.zipIdx_cons, List.filter_cons_of_pos (by simpa using carried), List.map_cons, carriedMessages]

end

/-- R139: the queue takes carried messages as far as it has room. -/
theorem joinSides_queue {sMax : Nat} (capacity : sMax ≠ 0) {p : Program} {key : Byte} (sides : List SlotSide) (index : Nat)
    (queue : List Message) : (joinSides sMax p key index sides queue).2 =
      queue ++ (carriedMessages p key index sides).take (32 - queue.length) := by
  induction sides generalizing index queue with
  | nil => exact (List.append_nil _).symm.trans (congrArg (queue ++ ·) List.take_nil.symm)
  | cons d rest ih =>
    cases carried : d.disposition.isCarried with
    | false =>
      rw [joinSides_stays carried, ih,
        carriedMessages_stays (mt (Disposition.isCarried_iff _).2 (by rw [carried]; exact nofun))]
    | true =>
      obtain full | room := Nat.lt_or_ge queue.length 32 |>.symm
      · rw [joinSides_full carried capacity full, ih, Nat.sub_eq_zero_of_le full, List.take_zero, List.take_zero]
      · have left : 32 - queue.length = (32 - (queue.length + 1)) + 1 := by omega
        rw [joinSides_joins carried capacity room, carriedMessages_carries ((Disposition.isCarried_iff _).1 carried)]
        dsimp only
        rw [ih, List.length_append, List.length_singleton, left, List.take_succ_cons, List.append_assoc, List.singleton_append]

/-- R139: how many of the first entries are carried. -/
def carriedBefore (sides : List SlotSide) (n : Nat) : Nat :=
  ((sides.take n).filter fun x => x.disposition = .carried ∨ x.disposition = .carriedCue).length

theorem carriedBefore_cons (d : SlotSide) (sides : List SlotSide) (n : Nat) : carriedBefore (d :: sides) (n + 1) =
    carriedBefore sides n + if d.disposition = .carried ∨ d.disposition = .carriedCue then 1 else 0 := by
  rw [carriedBefore, List.take_succ_cons]
  split
  next carried => rw [List.filter_cons_of_pos (by simpa using carried)]; rfl
  next kept => rw [List.filter_cons_of_neg (by simpa using kept)]; rfl

/-- R139: each carried entry that finds the queue full is dropped. -/
theorem joinSides_dispositions {sMax : Nat} (capacity : sMax ≠ 0) {p : Program} {key : Byte} (sides : List SlotSide)
    (index : Nat) (queue : List Message) (n : Nat) :
    (joinSides sMax p key index sides queue).1[n]? = sides[n]?.map fun d =>
      if (d.disposition = .carried ∨ d.disposition = .carriedCue) ∧ 32 - queue.length ≤ carriedBefore sides n then
        { d with disposition := .droppedQueueFull }
      else d := by
  induction sides generalizing index queue n with
  | nil => rfl
  | cons d rest ih =>
    cases carried : d.disposition.isCarried with
    | false =>
      have kept := mt (Disposition.isCarried_iff _).2 (by rw [carried]; exact nofun)
      rw [joinSides_stays carried]
      cases n with
      | zero => exact congrArg some (if_neg fun h => kept h.1).symm
      | succ n =>
        rw [carriedBefore_cons, if_neg kept]
        exact ih _ _ n
    | true =>
      have carries := (Disposition.isCarried_iff _).1 carried
      obtain full | room := Nat.lt_or_ge queue.length 32 |>.symm
      · rw [joinSides_full carried capacity full, Nat.sub_eq_zero_of_le full]
        cases n with
        | zero => exact congrArg some (if_pos ⟨carries, Nat.zero_le _⟩).symm
        | succ n =>
          have behind := ih (index + 1) queue n
          rw [Nat.sub_eq_zero_of_le full] at behind
          rw [List.getElem?_cons_succ, List.getElem?_cons_succ]
          simpa only [Nat.zero_le, and_true] using behind
      · rw [joinSides_joins carried capacity room]
        cases n with
        | zero =>
          refine congrArg some (if_neg fun h => ?_).symm
          have none_before : carriedBefore (d :: rest) 0 = 0 := rfl
          omega
        | succ n =>
          have behind := ih (index + 1)
            (queue ++ [{ program := p, key := key, index := index, address := d.address, length := d.length }]) n
          rw [List.length_append, List.length_singleton] at behind
          have same : 32 - queue.length ≤ carriedBefore rest n + 1 ↔ 32 - (queue.length + 1) ≤ carriedBefore rest n := by omega
          simp only [carriedBefore_cons, if_pos carries, same]
          exact behind

/-! ### The reservation -/

/-- R140: the reservation ends at the first message whose cells are too many. -/
theorem reserveFrom_next {sMax used : Nat} {queue : List Message} {m : Message}
    (next : (reserveFrom sMax used queue).2.head? = some m) :
    sMax < used + reservedCells (reserveFrom sMax used queue).1 + m.cells := by
  induction queue generalizing used with
  | nil => cases next
  | cons x rest ih =>
    by_cases fits : used + x.cells ≤ sMax
    · simp only [reserveFrom, if_pos fits] at next ⊢
      have behind := ih next
      rw [reservedCells, List.map_cons, List.sum_cons]
      rw [reservedCells] at behind
      omega
    · simp only [reserveFrom, if_neg fits] at next ⊢
      obtain rfl : x = m := Option.some.inj next
      simp only [reservedCells, List.map_nil, List.sum_nil]
      omega

end Sys2Proof.Machine

/-! PROOFS. An allocation completion: what every block takes up (3.2, R56; 4.2, R69; 5.4, R105; 7.5, R139, R140). -/

namespace Sys2Proof.Machine

/-! ### What engines that take jobs and the side path leave -/

/-- From s to t engines have taken and ended jobs and the side path has gone on with its messages: reports are on their way, and the
continuity counters and all else stay. -/
structure WorkFrame (s t : State) : Prop where
  rest : t = { s with
    controller := t.controller, allocator := t.allocator, recoder := t.recoder, side := t.side, store := t.store, link := t.link }
  controller : t.controller = { s.controller with reports := t.controller.reports }
  allocator : t.allocator = { s.allocator with reports := t.allocator.reports }
  counters : t.recoder.counters = s.recoder.counters

section
variable {r s t : State}

theorem WorkFrame.refl (s : State) : WorkFrame s s := ⟨rfl, rfl, rfl, rfl⟩

theorem WorkFrame.trans (a : WorkFrame r s) (b : WorkFrame s t) : WorkFrame r t where
  rest := by
    have h := b.rest
    rw [a.rest] at h
    exact h
  controller := by
    have h := b.controller
    rw [a.controller] at h
    exact h
  allocator := by
    have h := b.allocator
    rw [a.allocator] at h
    exact h
  counters := b.counters.trans a.counters

theorem WorkFrame.setPhase (h : WorkFrame r s) (e : Engine) (ph : EnginePhase) : WorkFrame r (s.setPhase e ph) :=
  h.trans (by cases e <;> exact ⟨rfl, rfl, rfl, rfl⟩)

theorem WorkFrame.setScratch (h : WorkFrame r s) (e : Engine) (bytes : List Byte) : WorkFrame r (s.setScratch e bytes) :=
  h.trans (by cases e <;> exact ⟨rfl, rfl, rfl, rfl⟩)

theorem WorkFrame.returnPages (h : WorkFrame r s) (pages : List Nat) : WorkFrame r (s.returnPages pages) :=
  h.trans ⟨rfl, rfl, rfl, rfl⟩

theorem WorkFrame.setRecoder (h : WorkFrame r s) (x : Recoder) (same : x.counters = s.recoder.counters) :
    WorkFrame r (s.setRecoder x) := h.trans ⟨rfl, rfl, rfl, same⟩

theorem WorkFrame.giveSpare (h : WorkFrame r s) (n : Nat) : WorkFrame r (s.giveSpare n) := h.setRecoder _ rfl

theorem WorkFrame.setFigures (h : WorkFrame r s) (p : Program) (f : JobFigures) : WorkFrame r (s.setFigures p f) :=
  h.setRecoder _ rfl

theorem WorkFrame.setStore (h : WorkFrame r s) (st : Store) : WorkFrame r (s.setStore st) := h.trans ⟨rfl, rfl, rfl, rfl⟩

theorem WorkFrame.setSide (h : WorkFrame r s) (d : Side) : WorkFrame r (s.setSide d) := h.trans ⟨rfl, rfl, rfl, rfl⟩

theorem WorkFrame.sendReport (h : WorkFrame r s) (j : Job) (body : ReportBody) : WorkFrame r (s.sendReport j body) :=
  h.trans ⟨rfl, rfl, rfl, rfl⟩

theorem WorkFrame.sendCompletion (h : WorkFrame r s) (j : Job) (o : Outcome) (size cells meanQ debt : Nat) :
    WorkFrame r (s.sendCompletion j o size cells meanQ debt) := h.trans ⟨rfl, rfl, rfl, rfl⟩

theorem WorkFrame.issue (h : WorkFrame r s) (x : Request) : WorkFrame r (s.issue x).1 := by
  obtain ⟨l, issued⟩ := s.issue_setLink x
  rw [issued]
  exact h.trans ⟨rfl, rfl, rfl, rfl⟩

theorem WorkFrame.of_issue {x : Request} {u : State} {o : Option Reply} (h : WorkFrame r s) (e : s.issue x = (u, o)) :
    WorkFrame r u := by
  have issued := h.issue x
  rwa [e] at issued

theorem WorkFrame.holdEnding (h : WorkFrame r s) (e : Engine) (j : Job) (o : Outcome) : WorkFrame r (s.holdEnding e j o) :=
  (((((h.returnPages _).giveSpare _).setFigures _ _).sendReport _ _).sendCompletion _ _ _ _ _ _).setPhase e .idle

theorem WorkFrame.faultEnding (h : WorkFrame r s) (e : Engine) (j : Job) (f : Failure) : WorkFrame r (s.faultEnding e j f) :=
  ((((h.returnPages _).giveSpare _).setFigures _ _).sendReport _ _).setPhase e .idle

theorem WorkFrame.readSlice (h : WorkFrame r s) (e : Engine) (j : Job) (w : PassWork) : WorkFrame r (s.readSlice e j w).1 := by
  unfold State.readSlice
  split
  · exact h.setPhase e _
  · exact (h.setPhase e _).issue _

theorem WorkFrame.startPass (h : WorkFrame r s) (e : Engine) (j : Job) (pass : Nat) (source : Source) (quants : List Nat)
    (cutoff : Nat) (limits : List (Nat × StopReason)) : WorkFrame r (s.startPass e j pass source quants cutoff limits).1 :=
  (h.setScratch e _).readSlice e _ _

theorem WorkFrame.takeJob (h : WorkFrame r s) (e : Engine) : WorkFrame r (s.takeJob e).1 := by
  unfold State.takeJob
  split
  · exact (h.setRecoder _ (by rfl)).startPass e _ _ _ _ _ _
  · exact h

theorem WorkFrame.contentFault (h : WorkFrame r s) (e : Engine) (j : Job) (f : Failure) :
    WorkFrame r (s.contentFault e j f).1 := by
  unfold State.contentFault
  split
  · exact (h.holdEnding e j _).takeJob e
  · exact (h.faultEnding e j f).takeJob e

theorem WorkFrame.codeNext (h : WorkFrame r s) (e : Engine) (j : Job) (w : PassWork) (data : List Byte) :
    WorkFrame r (s.codeNext e j w data).1 := by
  unfold State.codeNext
  split
  · exact h
  · split
    · exact (h.holdEnding e j _).takeJob e
    · split
      · exact h.setPhase e _
      · exact (h.setScratch e _).readSlice e _ _

theorem WorkFrame.engineStep (h : WorkFrame r s) (e : Engine) (x : Reply) : WorkFrame r (s.engineStep e x).1 := by
  unfold State.engineStep
  split
  · exact h.codeNext e _ _ _
  · exact h.contentFault e _ _
  · exact h

theorem WorkFrame.engineRun (e : Engine) : ∀ (fuel : Nat) (c : Cont), WorkFrame r c.1 → WorkFrame r (State.engineRun e fuel c)
  | 0, _, h => h
  | _ + 1, (_, none), h => h
  | fuel + 1, (_, some x), h => WorkFrame.engineRun e fuel _ (WorkFrame.engineStep h e x)

theorem WorkFrame.engineTakes (h : WorkFrame r s) (e : Engine) : WorkFrame r (s.engineTakes e) :=
  WorkFrame.engineRun e _ _ (h.takeJob e)

theorem WorkFrame.sideFault (h : WorkFrame r s) : WorkFrame r s.sideFault := by
  unfold State.sideFault
  split
  · exact h
  · exact h.trans ⟨rfl, rfl, rfl, rfl⟩

theorem WorkFrame.startSideBuild (fuel : Nat) : ∀ {s : State}, WorkFrame r s → WorkFrame r (State.startSideBuild fuel s) := by
  induction fuel with
  | zero => exact id
  | succ fuel ih =>
    intro s h
    unfold State.startSideBuild
    split
    · exact h
    · split
      · exact h
      · split
        · dsimp only
          split <;> rename_i issued
          · exact ((h.setStore _).setSide _).of_issue issued
          · exact ih (((h.setStore _).setSide _).of_issue issued).sideFault
        · exact h.trans ⟨rfl, rfl, rfl, rfl⟩

theorem WorkFrame.startRoundWork (h : WorkFrame r s) : WorkFrame r s.startRoundWork :=
  WorkFrame.startSideBuild _ ((h.engineTakes .re0).engineTakes .re1)

end

/-! ### The produced cells and the jobs -/

/-- R69: the cells of some programs produced one after another. -/
def State.produced (s : State) (cells : List (Program × BitVec 16)) : State :=
  cells.foldl (fun s x => s.produceCell x.1 x.2) s

/-- The state with another queue of jobs. -/
def State.withQueue (s : State) (queue : List Job) : State := s.setRecoder { s.recoder with queue := queue }

/-- R69: the placeholder of a grant. -/
def Grant.cell (g : Grant) : Program × BitVec 16 := (g.program, g.sequence.setWidth 16)

/-- R69: the cell of a hold grant. -/
def Hold.cell (h : Hold) : Program × BitVec 16 := (h.program, 0)

section
variable {s : State} {cells : List (Program × BitVec 16)} {p : Program}

theorem State.produced_frame (cells : List (Program × BitVec 16)) (s : State) : s.produced cells = { s with
    recoder := { s.recoder with counters := (s.produced cells).recoder.counters }
    line := { s.line with building := (s.produced cells).line.building } } := by
  induction cells generalizing s with
  | nil => rfl
  | cons x rest ih => exact ih (s.produceCell x.1 x.2)

theorem State.produced_withQueue (cells : List (Program × BitVec 16)) (s : State) (queue : List Job) :
    (s.withQueue queue).produced cells = (s.produced cells).withQueue queue := by
  induction cells generalizing s with
  | nil => rfl
  | cons x rest ih => exact ih (s.produceCell x.1 x.2)

theorem State.produced_append (s : State) (first second : List (Program × BitVec 16)) :
    s.produced (first ++ second) = (s.produced first).produced second := List.foldl_append

/-- R69: a program without a produced cell keeps its count and its part of the list. -/
theorem State.produced_other (other : p ∉ cells.map Prod.fst) :
    (s.produced cells).recoder.counters.look p = s.recoder.counters.look p ∧
      (s.produced cells).line.building.look p = s.line.building.look p := by
  induction cells generalizing s with
  | nil => exact ⟨rfl, rfl⟩
  | cons x rest ih =>
    rw [List.map_cons, List.mem_cons, not_or] at other
    obtain ⟨counts, parts⟩ := ih (s := s.produceCell x.1 x.2) other.2
    exact ⟨counts.trans (PerProgram.look_put_ne _ other.1 _), parts.trans (PerProgram.look_modify_ne _ other.1 _)⟩

/-- R69: each program's cell has its next count. -/
theorem State.produced_of_mem (once : (cells.map Prod.fst).Nodup) {sequence : BitVec 16} (mem : (p, sequence) ∈ cells) :
    (s.produced cells).recoder.counters.look p = s.recoder.counters.look p + 1 ∧
      ((s.produced cells).line.building.look p).picture =
        (s.line.building.look p).picture ++ [.produced p (s.recoder.counters.look p) sequence] := by
  induction cells generalizing s with
  | nil => cases mem
  | cons x rest ih =>
    rw [List.map_cons, List.nodup_cons] at once
    obtain ⟨fresh, once⟩ := once
    obtain rfl | behind := List.mem_cons.1 mem
    · obtain ⟨counts, parts⟩ := State.produced_other (s := s.produceCell p sequence) fresh
      exact ⟨counts.trans (PerProgram.look_put_same _ _ _),
        (congrArg Parts.picture (parts.trans (PerProgram.look_modify_same _ _ _)) :)⟩
    · have other : p ≠ x.1 := fun same => fresh (same ▸ List.mem_map_of_mem behind)
      have counted : (s.produceCell x.1 x.2).recoder.counters.look p = s.recoder.counters.look p :=
        PerProgram.look_put_ne _ other _
      have listed : (s.produceCell x.1 x.2).line.building.look p = s.line.building.look p :=
        PerProgram.look_modify_ne _ other _
      have later := ih (s := s.produceCell x.1 x.2) once behind
      rw [counted, listed] at later
      exact later

end

/-- R69: the jobs of some grants, each with the count that is its program's next. -/
def State.grantedJobs (s : State) (interval : Word) (grants : List Grant) : List Job :=
  grants.map fun g => g.job interval (s.recoder.counters.look g.program)

/-- R69: grants put their jobs in the queue and their placeholders in the list. -/
theorem State.foldl_grantJob (interval : Word) {grants : List Grant} (once : (grants.map Grant.program).Nodup) (s : State) :
    grants.foldl (State.grantJob interval) s =
      (s.produced (grants.map Grant.cell)).withQueue (queueJobs (s.grantedJobs interval grants) s.recoder.queue) := by
  induction grants generalizing s with
  | nil => rfl
  | cons g rest ih =>
    rw [List.map_cons, List.nodup_cons] at once
    obtain ⟨fresh, once⟩ := once
    have jobs : (State.grantJob interval s g).grantedJobs interval rest = s.grantedJobs interval rest :=
      List.map_congr_left fun x mem => by
        have other : x.program ≠ g.program := fun same => fresh (List.mem_map.2 ⟨x, mem, same⟩)
        exact congrArg (x.job interval) (PerProgram.look_put_ne _ other _)
    have produced := State.produced_withQueue (rest.map Grant.cell) (s.produceCell g.program (g.sequence.setWidth 16))
      (insertJob (g.job interval (s.recoder.counters.look g.program)) s.recoder.queue)
    rw [List.foldl_cons, ih once, jobs]
    exact (congrArg (fun u : State => u.withQueue
      (queueJobs (s.grantedJobs interval rest) (State.grantJob interval s g).recoder.queue)) produced).trans rfl

theorem State.foldl_grantHold (holds : List Hold) (s : State) :
    holds.foldl State.grantHold s = s.produced (holds.map Hold.cell) :=
  (List.foldl_map (f := Hold.cell) (g := fun (s : State) x => s.produceCell x.1 x.2)).symm

/-- R69: the produced cells of an allocation. -/
def Allocation.cells (a : Allocation) : List (Program × BitVec 16) := a.grants.map Grant.cell ++ a.holds.map Hold.cell

theorem Allocation.cells_programs (a : Allocation) :
    a.cells.map Prod.fst = a.grants.map Grant.program ++ a.holds.map Hold.program := by
  rw [Allocation.cells, List.map_append, List.map_map, List.map_map]
  rfl

theorem State.produced_round {a : Allocation} (once : (a.grants.map Grant.program).Nodup) (s : State) :
    a.holds.foldl State.grantHold (a.grants.foldl (State.grantJob a.interval) s) =
      (s.produced a.cells).withQueue (queueJobs (s.grantedJobs a.interval a.grants) s.recoder.queue) := by
  rw [State.foldl_grantJob a.interval once, State.foldl_grantHold, State.produced_withQueue, Allocation.cells,
    State.produced_append]

/-! ### The contexts -/

/-- Steps that change the contexts alone, one after another. -/
theorem State.foldl_programs {α : Type} {f : State → α → State}
    (one : ∀ s x, f s x = { s with controller := { s.controller with programs := (f s x).controller.programs } })
    (xs : List α) (s : State) : xs.foldl f s =
      { s with controller := { s.controller with programs := (xs.foldl f s).controller.programs } } := by
  induction xs generalizing s with
  | nil => rfl
  | cons x rest ih =>
    have later := ih (f s x)
    rw [one s x] at later
    rwa [List.foldl_cons, one s x]

theorem State.runPrimed_ctx (ps : List Program) (s : State) (p : Program) :
    (ps.foldl State.runPrimed s).ctx p = if p ∈ ps then { s.ctx p with state := .running } else s.ctx p := by
  induction ps generalizing s with
  | nil => rfl
  | cons q rest ih =>
    rw [List.foldl_cons, ih, State.runPrimed]
    obtain rfl | other := eq_or_ne p q
    · rw [State.ctx_modCtx_same, if_pos List.mem_cons_self]
      exact ite_self _
    · rw [State.ctx_modCtx_ne s other]
      exact if_congr (by simp [other]) rfl rfl

theorem State.storeSides_ctx_other {sides : List (Program × List SlotSide)} {p : Program} (other : p ∉ sides.map Prod.fst)
    (s : State) : (sides.foldl State.storeSides s).ctx p = s.ctx p := by
  induction sides generalizing s with
  | nil => rfl
  | cons x rest ih =>
    rw [List.map_cons, List.mem_cons, not_or] at other
    exact (ih other.2 _).trans (State.ctx_modCtx_ne s other.1 _)

/-- R41: a join sets the sides of slot A of each of its programs. -/
theorem State.storeSides_ctx {sides : List (Program × List SlotSide)} (once : (sides.map Prod.fst).Nodup)
    {x : Program × List SlotSide} (mem : x ∈ sides) (s : State) :
    (sides.foldl State.storeSides s).ctx x.1 = { s.ctx x.1 with window := (s.ctx x.1).window.setSides x.2 } := by
  induction sides generalizing s with
  | nil => cases mem
  | cons y rest ih =>
    rw [List.map_cons, List.nodup_cons] at once
    obtain ⟨fresh, once⟩ := once
    obtain rfl | behind := List.mem_cons.1 mem
    · exact (State.storeSides_ctx_other fresh _).trans (State.ctx_modCtx_same s _ _)
    · have other : x.1 ≠ y.1 := fun same => fresh (same ▸ List.mem_map_of_mem behind)
      have later := ih once behind (s.storeSides y)
      rwa [State.storeSides, State.ctx_modCtx_ne s other] at later

theorem State.storeSides_state (sides : List (Program × List SlotSide)) (s : State) (p : Program) :
    ((sides.foldl State.storeSides s).ctx p).state = (s.ctx p).state := by
  induction sides generalizing s with
  | nil => rfl
  | cons y rest ih =>
    rw [List.foldl_cons, ih, State.storeSides, State.ctx_modCtx]
    split <;> rfl

theorem State.joinFrom_programs (s : State) (ps : List Program) (queue : List Message) :
    (s.joinFrom ps queue).1.map Prod.fst = ps := by
  induction ps generalizing queue with
  | nil => rfl
  | cons p rest ih => exact congrArg (p :: ·) (ih _)

/-- R139: the join reads the settings, the access keys and the windows alone. -/
theorem State.joinFrom_congr_windows {s t : State} (settings : t.settingsD = s.settingsD)
    (fixed_ : ∀ p, (t.ctx p).fixed = (s.ctx p).fixed) (windows : ∀ p, (t.ctx p).window = (s.ctx p).window) :
    ∀ (ps : List Program) (queue : List Message), t.joinFrom ps queue = s.joinFrom ps queue
  | [], _ => rfl
  | p :: ps, queue => by
    simp only [State.joinFrom, settings, fixed_, windows, State.joinFrom_congr_windows settings fixed_ windows ps]

end Sys2Proof.Machine

/-! PROOFS. An allocation completion taken up, and what begins with it (3.2, R56). -/

namespace Sys2Proof.Machine

/-! ### The state that the join finds -/

/-- R9, R56, R69: the state once the primed programs run, the allocator has its results, and the jobs, their placeholders and the
spare pool's seed are in place. -/
def State.roundBegun (s : State) (a : Allocation) : State :=
  let u := (((a.primed.foldl State.runPrimed s).setAllocator (s.allocator.completed a)).produced a.cells).withQueue
    (queueJobs (s.grantedJobs a.interval a.grants) s.recoder.queue)
  u.setRecoder { u.recoder with spare := a.seed }

/-- The state with a round's join and its parity decisions. -/
def State.roundJoined (v : State) (a : Allocation) : State :=
  let w := v.joinAndReserve (a.grants.map Grant.program)
  w.setKeys (w.keys.decideParities (fun p => (w.ctx p).state ≠ .off) (a.interval + 1))

section
variable {s : State} {a : Allocation}

theorem State.runPrimed_frame (ps : List Program) (s : State) : ps.foldl State.runPrimed s =
    { s with controller := { s.controller with programs := (ps.foldl State.runPrimed s).controller.programs } } :=
  State.foldl_programs (fun _ _ => rfl) ps s

theorem State.storeSides_frame (sides : List (Program × List SlotSide)) (s : State) : sides.foldl State.storeSides s =
    { s with controller := { s.controller with programs := (sides.foldl State.storeSides s).controller.programs } } :=
  State.foldl_programs (fun _ _ => rfl) sides s

theorem State.applyAllocation_eq (once : (a.grants.map Grant.program).Nodup) :
    s.applyAllocation a = (s.roundBegun a).roundJoined a := by
  have primed := State.runPrimed_frame a.primed s
  unfold State.applyAllocation State.roundBegun
  dsimp only
  rw [State.produced_round once]
  generalize a.primed.foldl State.runPrimed s = u at primed ⊢
  have allocator : u.allocator = s.allocator := by rw [primed]
  have jobs : (u.setAllocator (u.allocator.completed a)).grantedJobs a.interval a.grants = s.grantedJobs a.interval a.grants := by
    rw [primed]
    rfl
  have queue : (u.setAllocator (u.allocator.completed a)).recoder.queue = s.recoder.queue := by
    rw [primed]
    rfl
  rw [jobs, queue, allocator]
  rfl

theorem State.roundBegun_frame : s.roundBegun a = { s with
    controller := { s.controller with programs := (s.roundBegun a).controller.programs }
    allocator := s.allocator.completed a
    recoder := { s.recoder with
      queue := queueJobs (s.grantedJobs a.interval a.grants) s.recoder.queue
      counters := (s.roundBegun a).recoder.counters
      spare := a.seed }
    line := { s.line with building := (s.roundBegun a).line.building } } := by
  have primed := State.runPrimed_frame a.primed s
  unfold State.roundBegun
  generalize a.primed.foldl State.runPrimed s = u at primed ⊢
  have produced := State.produced_frame a.cells (u.setAllocator (s.allocator.completed a))
  generalize (u.setAllocator (s.allocator.completed a)).produced a.cells = v at produced ⊢
  generalize v.recoder.counters = counters at produced ⊢
  generalize v.line.building = building at produced ⊢
  generalize u.controller.programs = programs at primed
  subst primed
  subst produced
  rfl

theorem State.roundBegun_ctx (p : Program) :
    (s.roundBegun a).ctx p = if p ∈ a.primed then { s.ctx p with state := .running } else s.ctx p := by
  have produced := State.produced_frame a.cells ((a.primed.foldl State.runPrimed s).setAllocator (s.allocator.completed a))
  calc (s.roundBegun a).ctx p
      = (((a.primed.foldl State.runPrimed s).setAllocator (s.allocator.completed a)).produced a.cells).ctx p := rfl
    _ = (a.primed.foldl State.runPrimed s).ctx p := (congrArg (fun u : State => u.ctx p) produced :)
    _ = _ := State.runPrimed_ctx a.primed s p

/-- R69: a program without a grant keeps its count and its part of the list. -/
theorem State.roundBegun_other {p : Program} (other : p ∉ a.cells.map Prod.fst) :
    (s.roundBegun a).recoder.counters.look p = s.recoder.counters.look p ∧
      (s.roundBegun a).line.building.look p = s.line.building.look p := by
  have produced := State.produced_other (s := (a.primed.foldl State.runPrimed s).setAllocator (s.allocator.completed a)) other
  have primed := State.runPrimed_frame a.primed s
  have counters : (a.primed.foldl State.runPrimed s).recoder.counters = s.recoder.counters := by rw [primed]
  have building : (a.primed.foldl State.runPrimed s).line.building = s.line.building := by rw [primed]
  rwa [State.setAllocator_recoder, State.setAllocator_line, counters, building] at produced

/-- R69: each program of a grant or a hold grant has its produced cell with its next count. -/
theorem State.roundBegun_of_mem (once : (a.cells.map Prod.fst).Nodup) {p : Program} {sequence : BitVec 16}
    (mem : (p, sequence) ∈ a.cells) :
    (s.roundBegun a).recoder.counters.look p = s.recoder.counters.look p + 1 ∧
      ((s.roundBegun a).line.building.look p).picture =
        (s.line.building.look p).picture ++ [.produced p (s.recoder.counters.look p) sequence] := by
  have produced := State.produced_of_mem (s := (a.primed.foldl State.runPrimed s).setAllocator (s.allocator.completed a)) once mem
  have primed := State.runPrimed_frame a.primed s
  have counters : (a.primed.foldl State.runPrimed s).recoder.counters = s.recoder.counters := by rw [primed]
  have building : (a.primed.foldl State.runPrimed s).line.building = s.line.building := by rw [primed]
  rwa [State.setAllocator_recoder, State.setAllocator_line, counters, building] at produced

/-! ### The join and the parity decisions -/

/-- R139: the sides and the queue that the join of a round gives. -/
theorem State.roundBegun_join (queue : List Message) (ps : List Program) :
    (s.roundBegun a).joinFrom ps queue = s.joinFrom ps queue := by
  refine State.joinFrom_congr_windows ?_ (fun p => ?_) (fun p => ?_) ps queue
  · rw [State.roundBegun_frame]
    rfl
  · rw [State.roundBegun_ctx]
    split <;> rfl
  · rw [State.roundBegun_ctx]
    split <;> rfl

/-- R139, R140: what the join and the parity decisions of a round change. -/
theorem State.roundJoined_frame (v : State) (a : Allocation) :
    let joined := v.joinFrom (a.grants.map Grant.program) v.side.queue
    let moved := reserveFrom v.settingsD.sMax 0 joined.2
    v.roundJoined a = { v with
      controller := { v.controller with programs := (joined.1.foldl State.storeSides v).controller.programs }
      side := { v.side with queue := moved.2, reserved := moved.1.map fun m => { message := m, state := .waiting } }
      keys := { v.keys with records := (v.roundJoined a).keys.records } } := by
  have stored := State.storeSides_frame (v.joinFrom (a.grants.map Grant.program) v.side.queue).1 v
  intro joined moved
  have side : (joined.1.foldl State.storeSides v).side = v.side := State.storeSides_side joined.1 v
  unfold State.roundJoined State.joinAndReserve
  dsimp only
  rw [show (v.joinFrom (a.grants.map Grant.program) v.side.queue).1 = joined.1 from rfl] at stored ⊢
  rw [show (v.joinFrom (a.grants.map Grant.program) v.side.queue).2 = joined.2 from rfl]
  generalize joined.1.foldl State.storeSides v = w at stored ⊢
  generalize w.controller.programs = programs at stored ⊢
  subst stored
  rfl

theorem State.roundJoined_ctx (v : State) (a : Allocation) (p : Program) : (v.roundJoined a).ctx p =
    ((v.joinFrom (a.grants.map Grant.program) v.side.queue).1.foldl State.storeSides v).ctx p := rfl

theorem State.roundJoined_state (v : State) (a : Allocation) (p : Program) :
    ((v.roundJoined a).ctx p).state = (v.ctx p).state := by
  rw [State.roundJoined_ctx, State.storeSides_state]

/-- R105: each SCRAMBLED record of a program that is not OFF gets its decision. -/
theorem State.roundJoined_record (v : State) (a : Allocation) (p : Program) : (v.roundJoined a).keys.records.look p =
    if (v.keys.records.look p).scrambled = true ∧ (v.ctx p).state ≠ .off then
      (v.keys.records.look p).decision (v.keys.slots.look p) (a.interval + 1)
    else v.keys.records.look p := by
  have keys : (v.joinAndReserve (a.grants.map Grant.program)).keys = v.keys :=
    (congrArg State.keys (State.storeSides_frame _ v) :)
  have state : ((v.joinAndReserve (a.grants.map Grant.program)).ctx p).state = (v.ctx p).state :=
    State.storeSides_state _ v p
  rw [State.roundJoined, State.setKeys_keys, Keys.decideParities, PerProgram.look_tabulate, keys, state]
  simp only [Bool.and_eq_true, decide_eq_true_iff]

end

/-! ### The state that the round has taken up -/

section
variable {s : State} {a : Allocation}

/-- R56: what an allocation completion changes before the status writes begin. -/
theorem State.applyAllocation_frame (once : (a.grants.map Grant.program).Nodup) :
    let joined := s.joinFrom (a.grants.map Grant.program) s.side.queue
    let moved := reserveFrom s.settingsD.sMax 0 joined.2
    s.applyAllocation a = { s with
      controller := { s.controller with programs := (s.applyAllocation a).controller.programs }
      allocator := s.allocator.completed a
      recoder := { s.recoder with
        queue := queueJobs (s.grantedJobs a.interval a.grants) s.recoder.queue
        counters := (s.roundBegun a).recoder.counters
        spare := a.seed }
      line := { s.line with building := (s.roundBegun a).line.building }
      side := { s.side with queue := moved.2, reserved := moved.1.map fun m => { message := m, state := .waiting } }
      keys := { s.keys with records := (s.applyAllocation a).keys.records } } := by
  have begun := State.roundBegun_frame (s := s) (a := a)
  have joined := State.roundJoined_frame (s.roundBegun a) a
  have queue : (s.roundBegun a).side.queue = s.side.queue := by rw [begun]
  have settings : (s.roundBegun a).settingsD = s.settingsD := by
    rw [begun]
    rfl
  rw [← State.applyAllocation_eq once, queue, State.roundBegun_join, settings] at joined
  dsimp only at joined ⊢
  generalize s.applyAllocation a = t at joined ⊢
  generalize (s.roundBegun a).recoder.counters = counters at begun ⊢
  generalize (s.roundBegun a).line.building = building at begun ⊢
  generalize s.roundBegun a = v at begun joined
  generalize v.controller.programs = before at begun
  subst begun
  have programs := congrArg (fun u : State => u.controller.programs) joined
  dsimp only at programs
  rw [← programs] at joined
  exact joined

theorem State.applyAllocation_state (once : (a.grants.map Grant.program).Nodup) (p : Program) :
    ((s.applyAllocation a).ctx p).state = if p ∈ a.primed then .running else (s.ctx p).state := by
  rw [State.applyAllocation_eq once, State.roundJoined_state, State.roundBegun_ctx]
  split <;> rfl

/-- R41, R139: the join sets the sides of slot A of each coding program, and nothing else of a window. -/
theorem State.applyAllocation_window (once : (a.grants.map Grant.program).Nodup) {x : Program × List SlotSide}
    (mem : x ∈ (s.joinFrom (a.grants.map Grant.program) s.side.queue).1) :
    ((s.applyAllocation a).ctx x.1).window = (s.ctx x.1).window.setSides x.2 := by
  have queue : (s.roundBegun a).side.queue = s.side.queue := by rw [State.roundBegun_frame]
  have names := s.joinFrom_programs (a.grants.map Grant.program) s.side.queue
  rw [State.applyAllocation_eq once, State.roundJoined_ctx, queue, State.roundBegun_join,
    State.storeSides_ctx (names.symm ▸ once) mem, State.roundBegun_ctx]
  split <;> rfl

theorem State.applyAllocation_record (once : (a.grants.map Grant.program).Nodup) (p : Program) :
    (s.applyAllocation a).keys.records.look p =
      if (s.keys.records.look p).scrambled = true ∧ (p ∈ a.primed ∨ (s.ctx p).state ≠ .off) then
        (s.keys.records.look p).decision (s.keys.slots.look p) (a.interval + 1)
      else s.keys.records.look p := by
  have keys : (s.roundBegun a).keys = s.keys := by rw [State.roundBegun_frame]
  have on : ((s.roundBegun a).ctx p).state ≠ .off ↔ p ∈ a.primed ∨ (s.ctx p).state ≠ .off := by
    rw [State.roundBegun_ctx]
    split
    next primed => exact ⟨fun _ => .inl primed, fun _ => nofun⟩
    next other => exact ⟨.inr, fun h => h.resolve_left other⟩
  rw [State.applyAllocation_eq once, State.roundJoined_record, keys]
  simp only [on]

end

/-! ### The round of status parts and the work that begin -/

section
variable {s : State} {a : Allocation}

theorem exec_allocationComplete (inFlight : s.allocator.inFlight = some a) :
    exec .allocationComplete s = .next ((s.applyAllocation a).startRoundStatus).startRoundWork := by
  change execAllocationComplete s = _
  rw [execAllocationComplete, inFlight]

theorem State.completeAtBoundary_some (inFlight : s.allocator.inFlight = some a) :
    s.completeAtBoundary = (s.applyAllocation a).startRoundStatus := by
  rw [State.completeAtBoundary, inFlight]

theorem exec_boundary_allocationFirst (running : s.timer.running = true) (inFlight : s.allocator.inFlight = some a)
    (lineFirst : Bool) : exec (.boundary { lineFirst := lineFirst, allocationFirst := true }) s =
      .next (((s.applyAllocation a).startRoundStatus).boundary lineFirst) := by
  change execBoundary _ s = _
  rw [execBoundary, if_pos running, if_pos rfl, State.completeAtBoundary_some inFlight]

/-- R6, R56: what the status writes of a round change of the state that the round has taken up. -/
theorem State.startRoundStatus_frame (t : State) : t.startRoundStatus = { t with
    controller := { t.controller with
      statusSeen := true, statusTodo := t.startRoundStatus.controller.statusTodo
      halt := t.startRoundStatus.controller.halt, notes := t.startRoundStatus.controller.notes }
    link := t.startRoundStatus.link } := by
  obtain ⟨rest, controller⟩ := StatusFrame.startStatus (t.setController { t.controller with statusSeen := true })
  unfold State.startRoundStatus
  generalize (t.setController { t.controller with statusSeen := true }).startStatus = u at rest controller ⊢
  rw [controller] at rest
  exact rest

/-- R56: the values that every block keeps or takes up once the round's work has begun. -/
theorem State.startRoundWork_values (t : State) :
    t.startRoundWork.allocator = { t.allocator with reports := t.startRoundWork.allocator.reports } ∧
      t.startRoundWork.timer = t.timer ∧
      t.startRoundWork.controller = { t.controller with reports := t.startRoundWork.controller.reports } ∧
      t.startRoundWork.recoder.counters = t.recoder.counters ∧ t.startRoundWork.line = t.line ∧
      t.startRoundWork.keys = t.keys := by
  obtain ⟨rest, controller, allocator, counters⟩ := (WorkFrame.refl t).startRoundWork
  exact ⟨allocator, (congrArg State.timer rest :), controller, counters, (congrArg State.line rest :), (congrArg State.keys rest :)⟩

end

end Sys2Proof.Machine

/-! PROOFS. What an allocation completion puts into effect (O44). -/

namespace Sys2Proof.Machine

section
variable {s : State} {a : Allocation}

theorem Allocation.mem_cells_of_grant {g : Grant} (mem : g ∈ a.grants) : (g.program, g.sequence.setWidth 16) ∈ a.cells :=
  List.mem_append_left _ (List.mem_map.2 ⟨g, mem, rfl⟩)

theorem Allocation.mem_cells_of_hold {h : Hold} (mem : h ∈ a.holds) : (h.program, 0) ∈ a.cells :=
  List.mem_append_right _ (List.mem_map.2 ⟨h, mem, rfl⟩)

/-- R6, R56: the round's status writes leave all that the blocks have taken up. -/
theorem State.roundTaken_frame (once : (a.grants.map Grant.program).Nodup) :
    let t := (s.applyAllocation a).startRoundStatus
    let moved := reserveFrom s.settingsD.sMax 0 (s.joinFrom (a.grants.map Grant.program) s.side.queue).2
    t = { s with
      controller := t.controller, allocator := s.allocator.completed a, link := t.link
      recoder := { s.recoder with
        queue := queueJobs (s.grantedJobs a.interval a.grants) s.recoder.queue
        counters := (s.roundBegun a).recoder.counters
        spare := a.seed }
      line := { s.line with building := (s.roundBegun a).line.building }
      side := { s.side with queue := moved.2, reserved := moved.1.map fun m => { message := m, state := .waiting } }
      keys := { s.keys with records := (s.applyAllocation a).keys.records } } ∧
    t.controller.programs = (s.applyAllocation a).controller.programs ∧ t.controller.statusSeen = true ∧
    t.controller.reports = s.controller.reports := by
  have taken := State.applyAllocation_frame (s := s) once
  have begun := State.startRoundStatus_frame (s.applyAllocation a)
  dsimp only at taken ⊢
  generalize (s.applyAllocation a).startRoundStatus = t at begun ⊢
  have controller := congrArg State.controller begun
  dsimp only at controller
  refine ⟨?_, (congrArg Controller.programs controller :), (congrArg Controller.statusSeen controller :), ?_⟩
  · rw [begun]
    generalize (s.applyAllocation a).keys.records = records at taken ⊢
    generalize (s.applyAllocation a).controller.programs = programs at taken
    rw [taken]
  · have reports := congrArg (fun u : State => u.controller.reports) taken
    exact (congrArg Controller.reports controller :).trans reports

/-- R6: a round of status parts waits behind one still being written. -/
theorem State.startRoundStatus_waits {u : State} (left : u.controller.statusTodo ≠ []) :
    u.startRoundStatus.controller.statusTodo = u.controller.statusTodo ++ programs ∧ u.startRoundStatus.link = u.link := by
  have waits : u.startRoundStatus = _ :=
    State.startStatus_waits (s := u.setController { u.controller with statusSeen := true }) left
  rw [waits]
  exact ⟨rfl, rfl⟩

theorem statusRequest_zero (s : State) : s.statusRequest 0 =
    { agent := .status, kind := .write, addr := s.settingsD.programTable + 0x40, length := 64, key := some 0
      data := statusBytes (s.ctx 0) (s.allocator.debt.look 0) (s.allocator.delivered.look 0).sum (s.keys.records.look 0)
        (s.side.latch.look 0) } := rfl

/-- R6: a round of status parts begins with the write of the first program's part, with the values of that moment. -/
theorem State.startRoundStatus_begins {u : State} (none_left : u.controller.statusTodo = []) {region : Byte}
    (passes : checkAccess u.link.regions { agent := .status, kind := .write, addr := u.settingsD.programTable + 0x40
                                           length := 64, key := some 0, data := [] } = .ok region) :
    let t := u.startRoundStatus
    t.controller.statusTodo = programs ∧
      t.link = { u.link with
        accesses := u.link.accesses ++
          [{ tag := u.link.nextTag, agent := .status, kind := .write, addr := u.settingsD.programTable + 0x40, length := 64
             key := some 0, region := region
             data := statusBytes (t.ctx 0) (t.allocator.debt.look 0) (t.allocator.delivered.look 0).sum (t.keys.records.look 0)
               (t.side.latch.look 0) }]
        nextTag := u.link.nextTag + 1 } := by
  have begun : u.startRoundStatus = State.statusRun programs (u.setController { u.controller with statusSeen := true }) :=
    State.startStatus_begins none_left
  have writes := State.statusRun_of_ok (s := u.setController { u.controller with statusSeen := true }) (p := 0)
    (rest := programs.tail) (region := region) (by rw [statusRequest_zero]; exact passes)
  rw [statusRequest_zero] at writes
  have whole := begun.trans writes
  rw [whole]
  exact ⟨rfl, rfl⟩

end

/-- Settles O44, from what a completion's parts change and the round of status parts that begins. -/
theorem allocationCompletionIsTakenUp : Obligations.AllocationCompletionIsTakenUp := by
  unfold Obligations.AllocationCompletionIsTakenUp
  refine ⟨?taken, ?round, fun c debt delivered r latch => ?bytes, ?codes, ?status, ?join, ?sides⟩
  case taken =>
    intro s a inFlight once
    have grants := (List.nodup_append.1 once).1
    have cells : (a.cells.map Prod.fst).Nodup := a.cells_programs.symm ▸ once
    obtain ⟨frame, programs, seen, -⟩ := State.roundTaken_frame (s := s) grants
    have ended := exec_allocationComplete inFlight
    generalize round : (s.applyAllocation a).startRoundStatus = t at ended frame programs seen
    obtain ⟨allocator, timer, controller, counters, line, keys⟩ := State.startRoundWork_values t
    have ctx : ∀ p, t.startRoundWork.ctx p = (s.applyAllocation a).ctx p := fun p =>
      congrArg (fun v : PerProgram ProgramCtx => v.look p) ((congrArg Controller.programs controller :).trans programs)
    have completed : t.allocator = s.allocator.completed a := by rw [frame]
    rw [completed] at allocator
    have counted : t.startRoundWork.recoder.counters = (s.roundBegun a).recoder.counters := by rw [counters, frame]
    have listed : t.startRoundWork.line.building = (s.roundBegun a).line.building := by rw [line, frame]
    refine ⟨t.startRoundWork, ended, (congrArg Allocator.debt allocator :), (congrArg Allocator.rotation allocator :),
      (congrArg Allocator.inFlight allocator :), (congrArg Allocator.current allocator :),
      (congrArg Allocator.reported allocator :), (congrArg Allocator.delivered allocator :), by rw [timer, frame],
      (congrArg Controller.statusSeen controller :).trans seen, fun p => ?_, fun g mem => ?_, fun h mem => ?_, fun p noGrant noHold => ?_,
      fun p => ⟨by rw [keys, frame], ?_⟩⟩
    · rw [ctx, State.applyAllocation_state grants]
    · rw [counted, listed]
      exact State.roundBegun_of_mem cells (a.mem_cells_of_grant mem)
    · rw [counted, listed]
      exact State.roundBegun_of_mem cells (a.mem_cells_of_hold mem)
    · obtain ⟨count, part⟩ := State.roundBegun_other (s := s) (a := a) (p := p)
        (by rw [a.cells_programs, List.mem_append, not_or]; exact ⟨noGrant, noHold⟩)
      rw [counted, listed]
      exact ⟨count, congrArg Parts.picture part⟩
    · have records : t.keys.records = (s.applyAllocation a).keys.records := by rw [frame]
      rw [keys, records, State.applyAllocation_record grants]
  case round =>
    intro s a inFlight once jobs joined
    have grants := (List.nodup_append.1 once).1
    obtain ⟨frame, programs, -, reports⟩ := State.roundTaken_frame (s := s) grants
    have ended := exec_allocationComplete inFlight
    have boundary := fun running => exec_boundary_allocationFirst (s := s) running inFlight
    have waits := State.startRoundStatus_waits (u := s.applyAllocation a)
    have begins := State.startRoundStatus_begins (u := s.applyAllocation a)
    have settings : (s.applyAllocation a).settingsD = s.settingsD := by
      rw [State.applyAllocation_frame grants]
      rfl
    have link : (s.applyAllocation a).link = s.link := by rw [State.applyAllocation_frame grants]
    have todo : (s.applyAllocation a).controller.statusTodo = s.controller.statusTodo := by
      rw [State.applyAllocation_frame grants]
    have reserved := reserveFrom_append s.settingsD.sMax 0 joined.2
    have within := reservedCells_reserveFrom_le (Nat.zero_le s.settingsD.sMax) joined.2
    have next := fun m => reserveFrom_next (sMax := s.settingsD.sMax) (used := 0) (queue := joined.2) (m := m)
    rw [show s.joinFrom (a.grants.map Grant.program) s.side.queue = joined from rfl] at frame
    dsimp only at frame
    generalize reserveFrom s.settingsD.sMax 0 joined.2 = moved at frame reserved within next
    have messages : (moved.1.map fun m => ({ message := m, state := .waiting } : Reserved)).map Reserved.message = moved.1 := by
      rw [List.map_map]
      exact List.map_id _
    have cells : ((moved.1.map fun m => ({ message := m, state := .waiting } : Reserved)).map fun r =>
        (r.message.length + 191) / 192).sum = reservedCells moved.1 := by
      rw [List.map_map]
      rfl
    have windows := fun x mem => State.applyAllocation_window (s := s) (a := a) grants (x := x) mem
    have names := s.joinFrom_programs (a.grants.map Grant.program) s.side.queue
    rw [todo, link] at waits
    rw [todo, link, settings] at begins
    generalize (s.applyAllocation a).startRoundStatus = t at ended boundary frame programs reports waits begins
    generalize s.applyAllocation a = u at programs windows frame
    have side := congrArg State.side frame
    have recoder := congrArg State.recoder frame
    have allocator := congrArg State.allocator frame
    have timer := congrArg State.timer frame
    dsimp only at side recoder allocator timer begins
    have queue : t.recoder.queue = queueJobs jobs s.recoder.queue := (congrArg Recoder.queue recoder :)
    have moves : t.side.reserved = moved.1.map fun m => { message := m, state := .waiting } := (congrArg Side.reserved side :)
    have stays : t.side.queue = moved.2 := (congrArg Side.queue side :)
    have ctx : ∀ p, t.ctx p = u.ctx p := fun p => congrArg (fun v : PerProgram ProgramCtx => v.look p) programs
    have debt : t.allocator.debt.look 0 = 0 := by rw [allocator, Allocator.completed_debt]
    rw [debt] at begins
    have runs : t.timer.running = s.timer.running := congrArg Timer.running timer
    refine ⟨t, ended, ?_⟩
    rw [queue, moves, stays, messages, cells]
    refine ⟨fun running lineFirst => ?_, timer, ?_, queueJobs_perm jobs _, fun empty => ?_, ?_, ?_, reserved, ?_, fun m first => ?_,
      names, fun x mem => ?_, waits, fun region none_left passes => begins none_left passes,
      (congrArg Allocator.reports allocator :), reports, (congrArg State.store frame :), (congrArg State.control frame :),
      (congrArg State.reporter frame :)⟩
    · rw [boundary running, exec_boundary_running (runs.trans running)]
    · rw [recoder]
      rfl
    · refine queueJobs_sorted (empty ▸ List.Pairwise.nil) ?_
      rw [empty, List.nil_append, List.map_map]
      exact grants
    · rw [side]
    · intro r mem
      obtain ⟨m, -, rfl⟩ := List.mem_map.1 mem
      rfl
    · rwa [Nat.zero_add] at within
    · have more := next m first
      rwa [Nat.zero_add] at more
    · rw [ctx]
      exact windows x mem
  case bytes =>
    obtain ⟨state, count, owed, parity, held, latched, outcome, refused, record, size, interval⟩ :=
      statusBytes_fields c debt delivered r latch
    exact ⟨statusBytes_length c debt delivered r latch, state, count, owed, parity, held, latched, outcome, refused, record, size,
      interval, fun i => statusBytes_tail c debt delivered r latch⟩
  case codes => decide
  case status =>
    intro s
    refine ⟨State.startStatus_begins, State.startStatus_waits, State.statusRun_nil s, fun p rest => ⟨fun region =>
      State.statusRun_of_ok, fun e => State.statusRun_of_error, fun pre post x data inFlight earlier behind agent todo => ?_⟩⟩
    intro after
    refine ⟨fun kind => ?_, fun c ends => ?_⟩
    · rw [exec_accessCompletion_write inFlight earlier behind kind data, agent]
      exact congrArg _ (State.statusReply_done (s := after) todo [])
    · rw [exec_busEnd inFlight earlier behind ends, agent]
      exact congrArg _ (State.statusReply_failed (s := after) todo _)
  case join =>
    intro s coding queue
    cases coding <;> rfl
  case sides =>
    intro sMax p key index sides queue joined
    refine ⟨fun closed => ?_, fun capacity => ⟨joinSides_queue capacity sides index queue, joinSides_dispositions capacity sides index queue⟩⟩
    subst closed
    exact joinSides_closed sides index queue

end Sys2Proof.Machine

/-! PROOFS. Where each page of the cell store is (6.2, R116): a count of the places that hold a page, and what the moves of pages
keep of it. -/

namespace Sys2Proof.Machine

/-! ### The places of a page, counted -/

/-- The pages that a side build holds. -/
def Side.pages (d : Side) : List Nat := (d.build.map fun b => [b.page]).getD []

/-- R146: the pages that the line's lists and holdings hold. -/
def Line.pages (l : Line) : List Nat := l.buildingPages ++ l.sendingPages ++ l.holdingPages

/-- The pages under test. -/
def Store.testPages (st : Store) : List Nat := (st.test.map PageTest.page).getD []

/-- How often a page is held, over all its holders. -/
def State.holds (s : State) (p : Nat) : Nat :=
  s.store.free.count p + s.store.retired.count p + s.recoder.re0.phase.pages.count p + s.recoder.re1.phase.pages.count p +
    s.side.pages.count p + s.line.buildingPages.count p + s.line.sendingPages.count p + s.line.holdingPages.count p +
    s.store.testPages.count p

theorem State.count_pageHolders (s : State) (p : Nat) : s.pageHolders.flatten.count p = s.holds p := by
  simp only [State.pageHolders, List.flatten_cons, List.flatten_nil, List.count_append, List.count_nil, State.holds, Side.pages,
    Store.testPages]
  omega

theorem count_range (n p : Nat) : (List.range n).count p = if p < n then 1 else 0 := by
  split
  next inside => exact List.count_eq_one_of_mem List.nodup_range (List.mem_range.2 inside)
  next outside => exact List.count_eq_zero.2 fun mem => outside (List.mem_range.1 mem)

theorem State.onePlace_iff (s : State) :
    s.pageHolders.flatten.Perm (List.range Config.pageCount) ↔ ∀ p, s.holds p = if p < 2048 then 1 else 0 := by
  rw [List.perm_iff_count]
  refine forall_congr' fun p => ?_
  rw [State.count_pageHolders, count_range]
  rfl

/-! ### The return of pages -/

theorem count_insertPage {n : Nat} {l : List Nat} (fresh : n ∉ l) (p : Nat) :
    (insertPage n l).count p = l.count p + [n].count p := by
  induction l with
  | nil => exact (Nat.zero_add _).symm
  | cons m rest ih =>
    rw [List.mem_cons, not_or] at fresh
    rw [insertPage]
    split
    · simp only [List.count_cons, List.count_nil]
      omega
    · rw [if_neg fresh.1, List.count_cons, ih fresh.2, List.count_cons (b := m)]
      omega

theorem count_foldl_insertPage {pages : List Nat} (once : pages.Nodup) {l : List Nat} (fresh : ∀ n ∈ pages, n ∉ l) (p : Nat) :
    (pages.foldl (fun r n => insertPage n r) l).count p = l.count p + pages.count p := by
  induction pages generalizing l with
  | nil => rfl
  | cons n rest ih =>
    obtain ⟨notLater, once⟩ := List.nodup_cons.1 once
    have joined : ∀ m ∈ rest, m ∉ insertPage n l := fun m mem held => by
      obtain rfl | held := mem_insertPage.1 held
      · exact notLater mem
      · exact fresh m (List.mem_cons_of_mem _ mem) held
    rw [List.foldl_cons, ih once joined, count_insertPage (fresh n List.mem_cons_self)]
    simp only [List.count_cons, List.count_nil]
    omega

theorem foldl_insertPage_rising (pages : List Nat) {l : List Nat} (rising : l.Pairwise (· < ·)) :
    (pages.foldl (fun r n => insertPage n r) l).Pairwise (· < ·) := by
  induction pages generalizing l with
  | nil => exact rising
  | cons n rest ih => exact ih (insertPage_rising rising)

section
variable {st : Store} {pages : List Nat}

/-- R119, R123: pages held nowhere else join the free list or the retired set, each once. -/
theorem Store.giveBack_count (apart : ∀ p, st.retired.count p + pages.count p ≤ 1) (p : Nat) :
    (st.giveBack pages).free.count p + (st.giveBack pages).retired.count p =
      st.free.count p + st.retired.count p + pages.count p := by
  have once : pages.Nodup := List.nodup_iff_count_le_one.2 fun n => (Nat.le_add_left _ _).trans (apart n)
  have sortedPerm := sortPages_perm once
  have sortedOnce : (sortPages pages).Nodup := sortedPerm.nodup_iff.2 once
  have marked : ∀ n ∈ (sortPages pages).filter st.marks.contains, n ∉ st.retired := fun n mem held => by
    have back := List.count_pos_iff.2 (mem_sortPages.1 (List.mem_of_mem_filter mem))
    have already := List.count_pos_iff.2 held
    have bound := apart n
    omega
  have split := ((List.filter_append_perm st.marks.contains (sortPages pages)).count_eq p).trans (sortedPerm.count_eq p)
  rw [List.count_append] at split
  have retired : (st.giveBack pages).retired.count p =
      st.retired.count p + ((sortPages pages).filter st.marks.contains).count p :=
    count_foldl_insertPage (sortedOnce.filter _) marked p
  rw [Store.giveBack_free, retired, List.count_append]
  omega

theorem Store.giveBack_rising (rising : st.retired.Pairwise (· < ·)) : (st.giveBack pages).retired.Pairwise (· < ·) :=
  foldl_insertPage_rising _ rising

end

/-! ### Pages on the move -/

/-- What the moves of pages leave: the test, the device state, START, and the timer. -/
def State.modes (s : State) : Option PageTest × DeviceState × Option StartWork × Bool :=
  (s.store.test, s.control.device, s.control.start, s.timer.running)

/-- What the pages are held by, beside the page under test. -/
def State.stocks (s : State) :=
  (s.store.free, s.store.retired, s.recoder.queue, s.recoder.re0.phase, s.recoder.re1.phase, s.side.build, s.line.buildingPages
    , s.line.sendingPages, s.line.holdingPages)

/-- From r on pages have been on the move, and in s some of them are held by nobody: every page is held once or is one of those. -/
structure Stock (r s : State) (moving : List Nat) : Prop where
  modes : s.modes = r.modes
  allocating : s.allocator.inFlight.isSome = true → r.allocator.inFlight.isSome = true
  balance : ∀ p, s.holds p + moving.count p = if p < 2048 then 1 else 0
  rising : s.store.retired.Pairwise (· < ·)
  queued : ∀ j ∈ s.recoder.queue, j.pages = []
  engines : ∀ e j w, (s.recoder.engine e).phase = .coding j w ∨ (s.recoder.engine e).phase = .passEnded j w → j.pages = []

/-- The device is RUNNING or DRAINING. -/
def State.Active (s : State) : Prop := s.control.device = .running ∨ s.control.device = .draining

section
variable {r s t : State} {moving pages : List Nat}

theorem State.PagesSound.stock (h : s.PagesSound) : Stock s s [] where
  modes := rfl
  allocating := id
  balance := s.onePlace_iff.1 h.onePlace
  rising := h.rising
  queued := h.queued
  engines := h.engines

theorem Stock.modes_iff : s.modes = r.modes ↔ s.store.test = r.store.test ∧ s.control.device = r.control.device ∧
    s.control.start = r.control.start ∧ s.timer.running = r.timer.running := by
  simp only [State.modes, Prod.mk.injEq]

/-- R116: once no page is on the move, the pages are sound where the device goes on to run. -/
theorem Stock.pagesSound (h : Stock r s []) (sound : r.PagesSound) (active : r.Active) : s.PagesSound := by
  obtain ⟨test, device, start, running⟩ := Stock.modes_iff.1 h.modes
  exact
    { onePlace := s.onePlace_iff.2 h.balance
      rising := h.rising
      queued := h.queued
      engines := h.engines
      test := test ▸ sound.test
      quiet := fun notRunning notDraining => by
        rw [device] at notRunning notDraining
        exact (active.elim notRunning notDraining).elim
      testing := by rw [test, device]; exact sound.testing
      starting := by rw [start, device]; exact sound.starting
      timed := by rw [running, device]; exact sound.timed
      allocating := fun inFlight => by rw [running]; exact sound.allocating (h.allocating inFlight) }

theorem Stock.active (h : Stock r s moving) (active : r.Active) : s.Active := by
  obtain ⟨-, device, -, -⟩ := Stock.modes_iff.1 h.modes
  rwa [State.Active, device]

/-- A change of the modes leaves the places. -/
theorem Stock.rebase (h : Stock r s moving) (stocks : t.stocks = s.stocks) (test : t.store.testPages = s.store.testPages) :
    Stock t t moving := by
  simp only [State.stocks, Prod.mk.injEq] at stocks
  obtain ⟨free, retired, queue, re0, re1, build, building, sending, holding⟩ := stocks
  have phases : ∀ e, (t.recoder.engine e).phase = (s.recoder.engine e).phase := fun e => by cases e <;> assumption
  exact
    { modes := rfl
      allocating := id
      balance := fun p => by
        have before := h.balance p
        rw [State.holds, Side.pages] at before ⊢
        rwa [free, retired, re0, re1, build, building, sending, holding, test]
      rising := retired ▸ h.rising
      queued := queue ▸ h.queued
      engines := fun e j w => by rw [phases]; exact h.engines e j w }

/-- Work that leaves all that holds pages. -/
theorem Stock.same (h : Stock r s moving) (stocks : t.stocks = s.stocks) (modes : t.modes = s.modes)
    (inFlight : t.allocator.inFlight.isSome = true → s.allocator.inFlight.isSome = true) : Stock r t moving := by
  have pages : t.store.testPages = s.store.testPages := by
    rw [Store.testPages, Store.testPages, (Stock.modes_iff.1 modes).1]
  have placed := h.rebase stocks pages
  exact
    { modes := modes.trans h.modes
      allocating := fun b => h.allocating (inFlight b)
      balance := placed.balance
      rising := placed.rising
      queued := placed.queued
      engines := placed.engines }

/-- The moving pages may stand in any order. -/
theorem Stock.perm (h : Stock r s moving) (same : moving.Perm pages) : Stock r s pages where
  modes := h.modes
  allocating := h.allocating
  balance p := by rw [← same.count_eq]; exact h.balance p
  rising := h.rising
  queued := h.queued
  engines := h.engines

theorem Stock.moved_once (h : Stock r s moving) (p : Nat) : s.holds p + moving.count p ≤ 1 := by
  rw [h.balance]
  split <;> omega

/-! ### The moves -/

/-- R119: some moving pages return. -/
theorem Stock.returnPages (h : Stock r s (pages ++ moving)) : Stock r (s.returnPages pages) moving where
  modes := h.modes
  allocating := h.allocating
  balance p := by
    have apart : ∀ n, s.store.retired.count n + pages.count n ≤ 1 := fun n => by
      have bound := h.moved_once n
      rw [List.count_append, State.holds] at bound
      omega
    have back := Store.giveBack_count apart p
    have before := h.balance p
    rw [List.count_append, State.holds] at before
    rw [← before, State.holds]
    change (s.store.giveBack pages).free.count p + (s.store.giveBack pages).retired.count p + s.recoder.re0.phase.pages.count p +
      s.recoder.re1.phase.pages.count p + s.side.pages.count p + s.line.buildingPages.count p + s.line.sendingPages.count p +
      s.line.holdingPages.count p + s.store.testPages.count p + moving.count p = _
    omega
  rising := Store.giveBack_rising h.rising
  queued := h.queued
  engines := h.engines

/-- R117: requested pages leave the head of the free list. -/
theorem Stock.request (h : Stock r s moving) {n : Nat} {store : Store} (served : s.store.request n = some (pages, store)) :
    Stock r (s.setStore store) (pages ++ moving) := by
  obtain ⟨-, whole, rest⟩ := Store.request_some served
  have test : store.test = s.store.test := by rw [rest]
  have retired : store.retired = s.store.retired := by rw [rest]
  exact
    { modes := (Stock.modes_iff (s := s.setStore store) (r := s)).2 ⟨test, rfl, rfl, rfl⟩ |>.trans h.modes
      allocating := h.allocating
      balance := fun p => by
        have before := h.balance p
        have counts := congrArg (List.count p) whole
        rw [List.count_append] at counts
        rw [← before, List.count_append, State.holds, State.holds, Store.testPages, Store.testPages, State.setStore_store, test,
          retired, counts]
        change store.free.count p + s.store.retired.count p + s.recoder.re0.phase.pages.count p +
          s.recoder.re1.phase.pages.count p + s.side.pages.count p + s.line.buildingPages.count p + s.line.sendingPages.count p +
          s.line.holdingPages.count p + _ + (pages.count p + moving.count p) = _
        omega
      rising := retired ▸ h.rising
      queued := h.queued
      engines := h.engines }

/-- R68: an engine passes from one phase to another: what it held moves, what it holds then moves no longer. -/
theorem Stock.setPhase {e : Engine} (h : Stock r s moving) {ph : EnginePhase} {left : List Nat}
    (passes : (moving ++ (s.recoder.engine e).phase.pages).Perm (left ++ ph.pages))
    (empty : ∀ j w, ph = .coding j w ∨ ph = .passEnded j w → j.pages = []) : Stock r (s.setPhase e ph) left where
  modes := by cases e <;> exact h.modes
  allocating := by cases e <;> exact h.allocating
  balance p := by
    have before := h.balance p
    have counts := passes.count_eq p
    rw [List.count_append, List.count_append] at counts
    cases e with
    | re0 =>
      rw [← before, State.holds, State.holds]
      change s.store.free.count p + s.store.retired.count p + ph.pages.count p + s.recoder.re1.phase.pages.count p +
        s.side.pages.count p + s.line.buildingPages.count p + s.line.sendingPages.count p + s.line.holdingPages.count p +
        s.store.testPages.count p + left.count p = _
      change moving.count p + s.recoder.re0.phase.pages.count p = _ at counts
      omega
    | re1 =>
      rw [← before, State.holds, State.holds]
      change s.store.free.count p + s.store.retired.count p + s.recoder.re0.phase.pages.count p + ph.pages.count p +
        s.side.pages.count p + s.line.buildingPages.count p + s.line.sendingPages.count p + s.line.holdingPages.count p +
        s.store.testPages.count p + left.count p = _
      change moving.count p + s.recoder.re1.phase.pages.count p = _ at counts
      omega
  rising := by cases e <;> exact h.rising
  queued := by cases e <;> exact h.queued
  engines e' j w busy := by
    obtain rfl | other := eq_or_ne e' e
    · rw [State.setPhase, State.setRecoder_recoder, Recoder.engine_setEngine_same] at busy
      exact empty j w busy
    · rw [State.setPhase, State.setRecoder_recoder, Recoder.engine_setEngine_ne _ other] at busy
      exact h.engines e' j w busy

/-- R69: another queue of jobs without pages. -/
theorem Stock.setQueue (h : Stock r s moving) {x : Recoder} (empty : ∀ j ∈ x.queue, j.pages = [])
    (re0 : x.re0.phase = s.recoder.re0.phase) (re1 : x.re1.phase = s.recoder.re1.phase) : Stock r (s.setRecoder x) moving where
  modes := h.modes
  allocating := h.allocating
  balance p := by
    have before := h.balance p
    rw [State.holds] at before ⊢
    rwa [State.setRecoder_recoder, re0, re1]
  rising := h.rising
  queued := empty
  engines e j w := by
    have phase : (x.engine e).phase = (s.recoder.engine e).phase := by cases e <;> assumption
    rw [State.setRecoder_recoder, phase]
    exact h.engines e j w

/-- R141: the side path passes from one build to another. -/
theorem Stock.setSide (h : Stock r s moving) {d : Side} {left : List Nat}
    (passes : (moving ++ s.side.pages).Perm (left ++ d.pages)) : Stock r (s.setSide d) left where
  modes := h.modes
  allocating := h.allocating
  balance p := by
    have before := h.balance p
    have counts := passes.count_eq p
    rw [List.count_append, List.count_append] at counts
    rw [← before, State.holds, State.holds]
    change s.store.free.count p + s.store.retired.count p + s.recoder.re0.phase.pages.count p + s.recoder.re1.phase.pages.count p +
      d.pages.count p + s.line.buildingPages.count p + s.line.sendingPages.count p + s.line.holdingPages.count p +
      s.store.testPages.count p + left.count p = _
    omega
  rising := h.rising
  queued := h.queued
  engines := h.engines

/-- R148 to R150: the line's lists pass pages on. -/
theorem Stock.setLine (h : Stock r s moving) {l : Line} {left : List Nat}
    (passes : (moving ++ s.line.pages).Perm (left ++ l.pages)) : Stock r (s.setLine l) left where
  modes := h.modes
  allocating := h.allocating
  balance p := by
    have before := h.balance p
    have counts := passes.count_eq p
    rw [Line.pages, Line.pages, List.count_append, List.count_append, List.count_append, List.count_append, List.count_append,
      List.count_append] at counts
    rw [← before, State.holds, State.holds]
    change s.store.free.count p + s.store.retired.count p + s.recoder.re0.phase.pages.count p + s.recoder.re1.phase.pages.count p +
      s.side.pages.count p + l.buildingPages.count p + l.sendingPages.count p + l.holdingPages.count p +
      s.store.testPages.count p + left.count p = _
    omega
  rising := h.rising
  queued := h.queued
  engines := h.engines

end

end Sys2Proof.Machine

/-! PROOFS. The moves of pages by the engines, the side path, the line and the interval's boundary (4, 7.6, 8; R116). -/

namespace Sys2Proof.Machine

section
variable {r s t : State} {moving : List Nat}

theorem Stock.issue (h : Stock r s moving) (q : Request) : Stock r (s.issue q).1 moving := by
  obtain ⟨l, issued⟩ := s.issue_setLink q
  rw [issued]
  exact h.same rfl rfl id

theorem Stock.of_issue (h : Stock r s moving) {q : Request} {o : Option Reply} (e : s.issue q = (t, o)) : Stock r t moving := by
  have issued := h.issue q
  rwa [e] at issued

theorem Stock.setScratch (h : Stock r s moving) (e : Engine) (bytes : List Byte) : Stock r (s.setScratch e bytes) moving := by
  cases e <;> exact h.same rfl rfl id

theorem RunFrame.stocks (f : RunFrame s t) : t.stocks = s.stocks := by
  rw [State.stocks, f.store, f.recoder, f.side, f.line]
  rfl

theorem RunFrame.modes (f : RunFrame s t) : t.modes = s.modes := by
  rw [State.modes, f.store, f.control, f.timer]
  rfl

/-- The work of the program controller moves no page. -/
theorem Stock.run (h : Stock r s moving) (f : RunFrame s t) : Stock r t moving :=
  h.same f.stocks f.modes fun b => by rwa [f.allocator] at b

/-! ### The engines -/

variable {e : Engine} {j : Job} {w : PassWork}

theorem Stock.coding_empty (h : Stock r s moving) (phase : (s.recoder.engine e).phase = .coding j w) : j.pages = [] :=
  h.engines e j w (.inl phase)

theorem EnginePhase.busy_empty {ph : EnginePhase} (phase : ph = .coding j w ∨ ph = .passEnded j w) (empty : j.pages = []) :
    ph.pages = [] := by
  obtain rfl | rfl := phase <;> exact empty

/-- R68: an engine without pages goes on with a job without pages. -/
theorem Stock.setBusy (h : Stock r s moving) (held : (s.recoder.engine e).phase.pages = []) {ph : EnginePhase}
    (phase : ph = .coding j w ∨ ph = .passEnded j w) (empty : j.pages = []) : Stock r (s.setPhase e ph) moving := by
  refine h.setPhase ?_ fun j' w' same => ?_
  · rw [held, EnginePhase.busy_empty phase empty]
  · obtain rfl | rfl := phase <;> obtain same | same := same <;> cases same <;> exact empty

/-- R119: the job of an engine ends and its pages return. -/
theorem Stock.endJob (h : Stock r s []) (held : (s.recoder.engine e).phase.pages = j.pages) :
    Stock r ((s.setPhase e .idle).returnPages j.pages) [] := by
  refine Stock.returnPages (h.setPhase ?_ (by rintro _ _ (⟨⟨⟩⟩ | ⟨⟨⟩⟩)))
  rw [held]
  simp [EnginePhase.pages]

theorem Stock.holdEnding (h : Stock r s []) (held : (s.recoder.engine e).phase.pages = j.pages) (o : Outcome) :
    Stock r (s.holdEnding e j o) [] := by
  cases e <;> exact (h.endJob held).same rfl rfl id

theorem Stock.faultEnding (h : Stock r s []) (held : (s.recoder.engine e).phase.pages = j.pages) (f : Failure) :
    Stock r (s.faultEnding e j f) [] := by
  cases e <;> exact (h.endJob held).same rfl rfl id

theorem Stock.readSlice (h : Stock r s []) (held : (s.recoder.engine e).phase.pages = []) (empty : j.pages = []) :
    Stock r (s.readSlice e j w).1 [] := by
  unfold State.readSlice
  split
  · exact h.setBusy held (.inr rfl) empty
  · exact (h.setBusy held (.inl rfl) empty).issue _

theorem State.setScratch_phase (s : State) (e : Engine) (bytes : List Byte) :
    ((s.setScratch e bytes).recoder.engine e).phase = (s.recoder.engine e).phase := by cases e <;> rfl

theorem Stock.startPass (h : Stock r s []) (held : (s.recoder.engine e).phase.pages = []) (empty : j.pages = []) (pass : Nat)
    (source : Source) (quants : List Nat) (cutoff : Nat) (limits : List (Nat × StopReason)) :
    Stock r (s.startPass e j pass source quants cutoff limits).1 [] :=
  (h.setScratch e _).readSlice (by rw [State.setScratch_phase]; exact held) (j := { j with pass := pass }) empty

theorem Stock.takeJob (h : Stock r s []) (e : Engine) : Stock r (s.takeJob e).1 [] := by
  unfold State.takeJob
  split
  next j rest idle queue =>
    have queued := h.queued
    rw [queue, List.forall_mem_cons] at queued
    have idlePages : (s.recoder.engine e).phase.pages = [] := by
      rw [idle]
      rfl
    refine Stock.startPass (h.setQueue (x := { s.recoder with queue := rest }) queued.2 rfl rfl) ?_ queued.1 _ _ _ _ _
    cases e <;> exact idlePages
  next => exact h

theorem Stock.codeNext (h : Stock r s []) (phase : (s.recoder.engine e).phase = .coding j w) (data : List Byte) :
    Stock r (s.codeNext e j w data).1 [] := by
  have empty := h.coding_empty phase
  have held : (s.recoder.engine e).phase.pages = [] := EnginePhase.busy_empty (.inl phase) empty
  unfold State.codeNext
  split
  · exact h
  · split
    · exact (h.holdEnding (held.trans empty.symm) _).takeJob e
    · split
      · exact h.setBusy held (.inr rfl) empty
      · exact (h.setScratch e _).readSlice (by rw [State.setScratch_phase]; exact held) empty

theorem Stock.contentFault (h : Stock r s []) (phase : (s.recoder.engine e).phase = .coding j w) (f : Failure) :
    Stock r (s.contentFault e j f).1 [] := by
  have empty := h.coding_empty phase
  have held : (s.recoder.engine e).phase.pages = j.pages := (EnginePhase.busy_empty (.inl phase) empty).trans empty.symm
  unfold State.contentFault
  split
  · exact (h.holdEnding held _).takeJob e
  · exact (h.faultEnding held f).takeJob e

theorem Stock.engineStep (h : Stock r s []) (e : Engine) (x : Reply) : Stock r (s.engineStep e x).1 [] := by
  unfold State.engineStep
  split
  next phase => exact h.codeNext phase _
  next phase => exact h.contentFault phase _
  next => exact h

theorem Stock.engineRun (e : Engine) : ∀ (fuel : Nat) (c : Cont), Stock r c.1 [] → Stock r (State.engineRun e fuel c) []
  | 0, _, h => h
  | _ + 1, (_, none), h => h
  | fuel + 1, (_, some x), h => Stock.engineRun e fuel _ (Stock.engineStep h e x)

theorem Stock.engineGoes {c : Cont} (h : Stock r c.1 []) (e : Engine) : Stock r (State.engineGoes e c) [] :=
  Stock.engineRun e _ c h

theorem Stock.engineTakes (h : Stock r s []) (e : Engine) : Stock r (s.engineTakes e) [] := (h.takeJob e).engineGoes e

theorem Stock.endsHeld (h : Stock r s []) (held : (s.recoder.engine e).phase.pages = j.pages) (o : Outcome) :
    Stock r (s.endsHeld e j o) [] := (h.holdEnding held o).engineTakes e

/-- R84, R117: the pages of a build come from the free list. -/
theorem Stock.startBuild (h : Stock r s []) (held : (s.recoder.engine e).phase.pages = []) (empty : j.pages = []) :
    Stock r (s.startBuild e j w) [] := by
  obtain ⟨u, begun⟩ : ∃ u, s.setScratch e ((s.recoder.engine e).scratch.set 6
      (BitVec.ofNat 8 (weightedMean w.source.slices w.quants))) = u := ⟨_, rfl⟩
  have header : Stock r u [] := begun ▸ h.setScratch e _
  have still : (u.recoder.engine e).phase.pages = [] := by rw [← begun, State.setScratch_phase, held]
  unfold State.startBuild
  dsimp only
  rw [begun]
  split
  · exact header.endsHeld (still.trans empty.symm) _
  · split
    · exact header.endsHeld (still.trans empty.symm) _
    next pages store served =>
      refine Stock.setPhase (header.request served) ?_ (by rintro _ _ (⟨⟨⟩⟩ | ⟨⟨⟩⟩))
      have none_held : ((u.setStore store).recoder.engine e).phase.pages = [] := still
      rw [none_held]
      simp [EnginePhase.pages]

/-- R118 to R120: the pages of a completed job pass to the lists or return. -/
theorem Stock.completeJob (h : Stock r s []) {b : Build} (phase : (s.recoder.engine e).phase = .building j b) :
    Stock r (s.completeJob e j b) [] := by
  have perm := divideCells_perm j.budget j.draw j.pages (s.buildCells e j b)
  have completed := State.completeJob_eq s e j b rfl
  generalize s.buildCells e j b = cells at perm completed
  generalize divideCells j.budget j.draw j.pages cells = c at perm completed
  rw [completed]
  have idle : Stock r (s.setPhase e .idle) j.pages := by
    refine h.setPhase ?_ (by rintro _ _ (⟨⟨⟩⟩ | ⟨⟨⟩⟩))
    rw [phase]
    simp [EnginePhase.pages]
  have linked : Stock r ((s.setPhase e .idle).setLine (s.line.jobLinked j c)) (c.unwritten ++ []) := by
    refine (idle.perm perm.symm).setLine ?_
    change (c.nowPages ++ c.laterPages ++ c.unwritten ++
      (s.line.buildingPages ++ s.line.sendingPages ++ s.line.holdingPages)).Perm
      (c.unwritten ++ [] ++ (s.line.buildingPages ++ c.nowPages ++ s.line.sendingPages ++ (s.line.holdingPages ++ c.laterPages)))
    refine List.perm_iff_count.2 fun p => ?_
    simp only [List.count_append, List.count_nil]
    omega
  cases e <;> exact linked.returnPages.same rfl rfl id

/-! ### The side path -/

theorem Stock.sideFault (h : Stock r s []) : Stock r s.sideFault [] := by
  unfold State.sideFault
  split
  · exact h
  next b building =>
    have detached : Stock r (s.setSide { s.side with build := none, reserved := dropBuilding s.side.reserved }) ([b.page] ++ []) := by
      refine h.setSide ?_
      rw [Side.pages, Side.pages, building]
      exact List.Perm.refl _
    exact detached.returnPages.same rfl rfl id

theorem Stock.startSideBuild (fuel : Nat) : ∀ {s : State}, Stock r s [] → Stock r (State.startSideBuild fuel s) [] := by
  induction fuel with
  | zero => exact id
  | succ fuel ih =>
    intro s h
    unfold State.startSideBuild
    split
    · exact h
    next going =>
      have unbuilt : s.side.pages = [] := by
        rw [Bool.or_eq_true, not_or, Bool.not_eq_true, Bool.not_eq_true, Option.isSome_eq_false_iff, Option.isNone_iff_eq_none] at going
        rw [Side.pages, going.2]
        rfl
      split
      · exact h
      · split
        next page store served =>
          have building := fun m => (h.request served).setSide (left := [])
            (d := { s.side with reserved := markBuilding s.side.reserved
                                build := some { message := m, page := page, data := none } }) (by
              rw [State.setStore_side, unbuilt]
              exact List.Perm.refl _)
          dsimp only
          split <;> rename_i issued
          · exact (building _).of_issue issued
          · exact ih ((building _).of_issue issued).sideFault
        · exact h.same rfl rfl id

theorem Stock.nextSideBuild (h : Stock r s []) : Stock r s.nextSideBuild [] := h.startSideBuild _

/-- R142: the page of a side build passes to the building list. -/
theorem Stock.linkSideBuild (h : Stock r s []) {b : SideBuild} (building : s.side.build = some b) (data : List Byte) :
    Stock r (s.linkSideBuild b data) [] := by
  have detached : Stock r (s.setSide { s.side with build := none }) [b.page] := by
    refine h.setSide ?_
    rw [Side.pages, Side.pages, building]
    exact List.Perm.refl _
  have linked : Stock r ((s.setSide { s.side with build := none }).setLine
      { s.line with buildingPages := s.line.buildingPages ++ [b.page] }) [] := by
    refine detached.setLine ?_
    rw [Line.pages, Line.pages]
    change ([b.page] ++ (s.line.buildingPages ++ s.line.sendingPages ++ s.line.holdingPages)).Perm
      ([] ++ (s.line.buildingPages ++ [b.page] ++ s.line.sendingPages ++ s.line.holdingPages))
    refine List.perm_iff_count.2 fun p => ?_
    simp only [List.count_append, List.count_nil]
    omega
  exact linked.same rfl rfl id

/-- R144: at a reservation's end the page of a side build returns. -/
theorem Stock.endReservation (h : Stock r s moving) : Stock r s.endReservation moving := by
  unfold State.endReservation
  dsimp only
  split
  next b building =>
    have detached : Stock r (s.setSide { s.side with build := none }) ([b.page] ++ moving) := by
      refine h.setSide ?_
      rw [Side.pages, Side.pages, building]
      change (moving ++ [b.page]).Perm ([b.page] ++ moving ++ [])
      rw [List.append_nil]
      exact List.perm_append_comm
    exact detached.returnPages.same rfl rfl id
  next none_built =>
    refine h.same ?_ rfl id
    simp only [State.stocks]
    rw [none_built]
    rfl

end

end Sys2Proof.Machine

/-! PROOFS. The pages over the ends of whole rounds of work: the boundary, the drain's end, HALT, and START (R116). -/

namespace Sys2Proof.Machine

section
variable {r s t : State} {moving : List Nat}

/-! ### Dropped jobs and their pages -/

theorem Stock.returnJobs (jobs : List Job) : ∀ {s : State}, Stock r s ((jobs.map Job.pages).flatten ++ moving) →
    Stock r (s.returnJobs jobs) moving := by
  induction jobs with
  | nil => exact id
  | cons j rest ih =>
    intro s h
    rw [List.map_cons, List.flatten_cons, List.append_assoc] at h
    exact ih h.returnPages

theorem EnginePhase.job_pages (ph : EnginePhase) : (ph.job.toList.map Job.pages).flatten = ph.pages := by
  cases ph <;> simp [EnginePhase.job, EnginePhase.pages]

/-- R68: only the engines' jobs hold pages. -/
theorem Recoder.jobs_pages {x : Recoder} (queued : ∀ j ∈ x.queue, j.pages = []) :
    (x.jobs.map Job.pages).flatten = x.re0.phase.pages ++ x.re1.phase.pages := by
  have queue : (x.queue.map Job.pages).flatten = [] := by
    rw [List.flatten_eq_nil_iff]
    intro pages mem
    obtain ⟨j, queuedJob, rfl⟩ := List.mem_map.1 mem
    exact queued j queuedJob
  rw [Recoder.jobs, List.map_append, List.map_append, List.flatten_append, List.flatten_append, queue,
    EnginePhase.job_pages, EnginePhase.job_pages]
  rfl

/-- R90: the jobs end and their pages are on the move. -/
theorem Stock.dropJobs (h : Stock r s moving) : Stock r s.dropJobs ((s.recoder.jobs.map Job.pages).flatten ++ moving) := by
  rw [Recoder.jobs_pages h.queued]
  have idle0 : Stock r (s.setPhase .re0 .idle) (s.recoder.re0.phase.pages ++ moving) :=
    h.setPhase (by
      change (moving ++ s.recoder.re0.phase.pages).Perm (s.recoder.re0.phase.pages ++ moving ++ [])
      rw [List.append_nil]
      exact List.perm_append_comm) (by rintro _ _ (⟨⟨⟩⟩ | ⟨⟨⟩⟩))
  have idle1 : Stock r ((s.setPhase .re0 .idle).setPhase .re1 .idle)
      (s.recoder.re0.phase.pages ++ s.recoder.re1.phase.pages ++ moving) :=
    idle0.setPhase (by
      change (s.recoder.re0.phase.pages ++ moving ++ s.recoder.re1.phase.pages).Perm
        (s.recoder.re0.phase.pages ++ s.recoder.re1.phase.pages ++ moving ++ [])
      rw [List.append_nil, List.append_assoc, List.append_assoc]
      exact List.perm_append_comm.append_left _) (by rintro _ _ (⟨⟨⟩⟩ | ⟨⟨⟩⟩))
  refine (idle1.setQueue (x := { s.dropJobs.recoder with queue := [] }) ?_ rfl rfl).same rfl rfl id
  exact fun j mem => by cases mem

theorem Stock.lateJobs (h : Stock r s moving) : Stock r s.lateJobs ((s.recoder.jobs.map Job.pages).flatten ++ moving) := by
  rw [State.lateJobs_eq]
  exact h.dropJobs.same rfl rfl id

theorem Stock.haltRecoder (h : Stock r s moving) : Stock r s.haltRecoder moving := by
  have back := Stock.returnJobs s.recoder.jobs h.dropJobs
  refine back.same ?_ ?_ ?_
  · rw [State.haltRecoder, State.returnJobs_eq, State.returnJobs_eq]
    rfl
  · rw [State.haltRecoder, State.returnJobs_eq, State.returnJobs_eq]
    rfl
  · rw [State.haltRecoder, State.returnJobs_eq, State.returnJobs_eq]
    exact id

/-! ### The lists of the line -/

theorem Stock.stopLine (h : Stock r s moving) : Stock r s.stopLine moving := by
  have stopped : Stock r (s.setLine s.line.stopped)
      (s.line.sendingPages ++ s.line.buildingPages ++ s.line.holdingPages ++ moving) := by
    refine h.setLine ?_
    change (moving ++ (s.line.buildingPages ++ s.line.sendingPages ++ s.line.holdingPages)).Perm
      (s.line.sendingPages ++ s.line.buildingPages ++ s.line.holdingPages ++ moving ++ ([] ++ [] ++ []))
    refine List.perm_iff_count.2 fun p => ?_
    simp only [List.count_append, List.count_nil]
    omega
  exact stopped.returnPages.same rfl rfl id

theorem Stock.swapLine (h : Stock r s moving) : Stock r s.swapLine.1 moving := by
  have swapped : Stock r (s.setLine s.line.swap) (s.line.sendingPages ++ moving) := by
    refine h.setLine ?_
    change (moving ++ (s.line.buildingPages ++ s.line.sendingPages ++ s.line.holdingPages)).Perm
      (s.line.sendingPages ++ moving ++ (s.line.holdingPages ++ s.line.buildingPages ++ []))
    refine List.perm_iff_count.2 fun p => ?_
    simp only [List.count_append, List.count_nil]
    omega
  unfold State.swapLine
  dsimp only
  split
  · exact swapped.returnPages.same rfl rfl id
  · exact swapped.returnPages.same rfl rfl id

theorem Stock.swapLists (lineFirst : Bool) {jobs : List Job} (h : Stock r s ((jobs.map Job.pages).flatten ++ moving)) :
    Stock r (s.swapLists lineFirst jobs).1 moving := by
  cases lineFirst with
  | true =>
    rw [State.swapLists_true]
    exact Stock.returnJobs jobs h.swapLine
  | false =>
    rw [State.swapLists_false]
    exact (Stock.returnJobs jobs h).swapLine

/-! ### The boundary -/

theorem Stock.clearFigures (h : Stock r s moving) : Stock r s.clearFigures moving := h.same rfl rfl id

theorem Stock.openInterval (h : Stock r s moving) : Stock r s.openInterval moving := h.same rfl rfl id

/-- R119, R144, R150: at a boundary the pages of the jobs, of the side build and of the sending list return. -/
theorem Stock.intervalClosed (h : Stock r s []) (lineFirst : Bool) : Stock r (s.intervalClosed lineFirst) [] := by
  have closed : Stock r ((s.lateJobs.setRecoder { s.lateJobs.recoder with spare := 0 }).closeInterval)
      ((s.recoder.jobs.map Job.pages).flatten ++ []) := by
    rw [State.closeInterval_closed]
    refine h.lateJobs.same rfl rfl fun inFlight => ?_
    obtain ⟨-, -, none_left, -⟩ := Allocator.closed_fields (delay := State.delayOf
      (s.lateJobs.setRecoder { s.lateJobs.recoder with spare := 0 })) s.lateJobs.allocator
    have left : Option.isSome (none : Option Allocation) = true := none_left ▸ inFlight
    cases left
  exact (Stock.swapLists lineFirst closed.endReservation).clearFigures.openInterval

/-! ### The allocation -/

theorem Stock.setKeys (h : Stock r s moving) (k : Keys) : Stock r (s.setKeys k) moving := h.same rfl rfl id

theorem Stock.storeSides (sides : List (Program × List SlotSide)) (h : Stock r s moving) :
    Stock r (sides.foldl State.storeSides s) moving := by
  rw [State.storeSides_frame]
  exact h.same rfl rfl id

theorem Stock.produceCell (h : Stock r s moving) (p : Program) (sequence : BitVec 16) :
    Stock r (s.produceCell p sequence) moving := h.same rfl rfl id

theorem insertJob_empty {j : Job} {queue : List Job} (empty : ∀ k ∈ queue, k.pages = []) (none_held : j.pages = []) :
    ∀ k ∈ insertJob j queue, k.pages = [] := by
  intro k mem
  obtain rfl | mem := mem_insertJob mem
  · exact none_held
  · exact empty k mem

theorem Stock.grantJob (h : Stock r s moving) (interval : Word) (g : Grant) : Stock r (State.grantJob interval s g) moving :=
  (h.setQueue (x := { s.recoder with queue := insertJob (g.job interval (s.recoder.counters.look g.program)) s.recoder.queue })
    (insertJob_empty h.queued rfl) rfl rfl).produceCell _ _

theorem Stock.foldl {α : Type} {f : State → α → State} (xs : List α)
    (one : ∀ (s : State) x, Stock r s moving → Stock r (f s x) moving) :
    ∀ {s : State}, Stock r s moving → Stock r (xs.foldl f s) moving := by
  induction xs with
  | nil => exact id
  | cons x rest ih => exact fun h => ih (one _ x h)

theorem Stock.joinAndReserve (h : Stock r s moving) (coding : List Program) : Stock r (s.joinAndReserve coding) moving := by
  have stored := h.storeSides (s.joinFrom coding s.side.queue).1
  unfold State.joinAndReserve
  dsimp only
  rw [State.storeSides_frame] at stored ⊢
  exact stored.same rfl rfl id

/-- R69: the jobs of an allocation hold no page. -/
theorem Stock.applyAllocation (h : Stock r s moving) (a : Allocation) : Stock r (s.applyAllocation a) moving := by
  have primed := Stock.foldl (f := State.runPrimed) a.primed (fun _ _ hu => hu.same rfl rfl id) h
  have completed : Stock r ((a.primed.foldl State.runPrimed s).setAllocator
      ((a.primed.foldl State.runPrimed s).allocator.completed a)) moving := primed.same rfl rfl nofun
  have granted := Stock.foldl (f := State.grantJob a.interval) a.grants (fun _ g hu => hu.grantJob _ g) completed
  have held := Stock.foldl (f := State.grantHold) a.holds (fun _ x hu => hu.produceCell x.program 0) granted
  have seeded := held.setQueue (x := { State.recoder _ with spare := a.seed }) held.queued rfl rfl
  exact Stock.setKeys (seeded.joinAndReserve _) _

theorem Stock.startRoundStatus (h : Stock r s moving) : Stock r s.startRoundStatus moving := by
  rw [State.startRoundStatus_frame]
  exact h.same rfl rfl id

end

end Sys2Proof.Machine

/-! PROOFS. The soundness of the pages where the device stays in its state (R116): the work that holds no page, and the two reads of
START and of the filter table. -/

namespace Sys2Proof.Machine

section
variable {r s t : State} {moving : List Nat}

/-! ### What goes with the places -/

/-- What `State.PagesSound` says of the device state, the timer, the test and START. -/
structure State.ModesSound (s : State) : Prop where
  test : ∀ x, s.store.test = some x →
    x.last < Config.pageCount ∧ (∀ p ∈ x.page, p ≤ x.last) ∧ (x.phase = .between → x.next ≤ x.last)
  quiet : s.control.device ≠ .running → s.control.device ≠ .draining → s.StoreQuiet
  testing : s.store.test.isSome = true → s.control.device = .testing ∨ s.control.device = .halting
  starting : s.control.start.isSome = true → s.control.device = .starting
  timed : s.timer.running = true → s.control.device = .running ∨ s.control.device = .draining
  allocating : s.allocator.inFlight.isSome = true → s.timer.running = true

theorem Stock.settled (h : Stock r s []) (modes : s.ModesSound) : s.PagesSound where
  onePlace := s.onePlace_iff.2 h.balance
  rising := h.rising
  queued := h.queued
  engines := h.engines
  test := modes.test
  quiet := modes.quiet
  testing := modes.testing
  starting := modes.starting
  timed := modes.timed
  allocating := modes.allocating

theorem State.StoreQuiet.same (quiet : s.StoreQuiet) (stocks : t.stocks = s.stocks) : t.StoreQuiet := by
  simp only [State.stocks, Prod.mk.injEq] at stocks
  obtain ⟨-, -, -, re0, re1, build, building, sending, holding⟩ := stocks
  exact ⟨re0.trans quiet.engine0, re1.trans quiet.engine1, build.trans quiet.side
    , building.trans quiet.line.1, sending.trans quiet.line.2.1, holding.trans quiet.line.2.2⟩

/-- Work that leaves all that holds pages and the modes. -/
theorem State.PagesSound.same (sound : s.PagesSound) (stocks : t.stocks = s.stocks) (modes : t.modes = s.modes)
    (inFlight : t.allocator.inFlight.isSome = true → s.allocator.inFlight.isSome = true) : t.PagesSound := by
  obtain ⟨test, device, start, running⟩ := Stock.modes_iff.1 modes
  refine (sound.stock.same stocks modes inFlight).settled ?_
  exact
    { test := test ▸ sound.test
      quiet := fun notRunning notDraining => by
        rw [device] at notRunning notDraining
        exact (sound.quiet notRunning notDraining).same stocks
      testing := by rw [test, device]; exact sound.testing
      starting := by rw [start, device]; exact sound.starting
      timed := by rw [running, device]; exact sound.timed
      allocating := fun b => by rw [running]; exact sound.allocating (inFlight b) }

theorem RunFrame.inFlight (f : RunFrame s t) : t.allocator.inFlight = s.allocator.inFlight := by rw [f.allocator]

theorem State.PagesSound.run (sound : s.PagesSound) (f : RunFrame s t) : t.PagesSound :=
  sound.same f.stocks f.modes fun b => f.inFlight ▸ b

theorem State.PagesSound.issue (sound : s.PagesSound) (q : Request) : (s.issue q).1.PagesSound :=
  sound.run ((RunFrame.refl s).issue q)

theorem State.PagesSound.of_issue (sound : s.PagesSound) {q : Request} {o : Option Reply} (e : s.issue q = (t, o)) :
    t.PagesSound :=
  sound.run ((RunFrame.refl s).of_issue e)

/-! ### When the device is active -/

/-- Outside of RUNNING and DRAINING nothing is under way. -/
theorem State.PagesSound.still (sound : s.PagesSound) (inactive : ¬ s.Active) :
    s.StoreQuiet ∧ s.timer.running = false ∧ s.allocator.inFlight = none := by
  obtain ⟨notRunning, notDraining⟩ := not_or.1 inactive
  have stopped : s.timer.running = false := Bool.eq_false_iff.2 fun running => inactive (sound.timed running)
  refine ⟨sound.quiet notRunning notDraining, stopped, Option.not_isSome_iff_eq_none.1 fun inFlight => ?_⟩
  exact Bool.eq_false_iff.1 stopped (sound.allocating inFlight)

theorem State.PagesSound.active_of_running (sound : s.PagesSound) (running : s.timer.running = true) : s.Active :=
  sound.timed running

theorem State.PagesSound.active_of_inFlight (sound : s.PagesSound) {a : Allocation} (inFlight : s.allocator.inFlight = some a) :
    s.Active :=
  sound.timed (sound.allocating (by rw [inFlight]; rfl))

theorem State.PagesSound.active_of_phase (sound : s.PagesSound) {e : Engine} (busy : (s.recoder.engine e).phase ≠ .idle) :
    s.Active :=
  by_contra fun inactive => busy (by cases e; exacts [(sound.still inactive).1.engine0, (sound.still inactive).1.engine1])

theorem State.PagesSound.active_of_build (sound : s.PagesSound) {b : SideBuild} (building : s.side.build = some b) :
    s.Active :=
  by_contra fun inactive => by
    have idle := (sound.still inactive).1.side
    rw [building] at idle
    cases idle

/-- The moves of a command that comes to a device that is active. -/
theorem State.PagesSound.moved (sound : s.PagesSound) (active : s.Active) (h : Stock s s [] → Stock s t []) : t.PagesSound :=
  (h sound.stock).pagesSound sound active

/-! ### START -/

theorem State.PagesSound.setStart (sound : s.PagesSound) (device : s.control.device = .starting) (w : StartWork) :
    (s.setStart w).PagesSound := by
  refine Stock.settled (sound.stock.rebase (t := s.setStart w) rfl rfl) ?_
  exact
    { test := sound.test
      quiet := fun notRunning notDraining => (sound.quiet notRunning notDraining).same rfl
      testing := sound.testing
      starting := fun _ => device
      timed := sound.timed
      allocating := sound.allocating }

theorem State.PagesSound.startRead (sound : s.PagesSound) (device : s.control.device = .starting) (step : StartStep)
    (directory : Long) (key : Option Byte) (addr : Long) (length : Nat) :
    (s.startRead step directory key addr length).PagesSound := by
  have reading := sound.setStart device (.reading step directory)
  unfold State.startRead
  split
  next issued => exact reading.of_issue issued
  next issued =>
    refine (reading.of_issue issued).setStart ?_ _
    exact (Stock.modes_iff.1 ((RunFrame.refl _).of_issue issued).modes).2.1.trans device

theorem State.PagesSound.startReply (sound : s.PagesSound) (x : Reply) : (s.startReply x).PagesSound := by
  cases reading : s.control.start with
  | none =>
    unfold State.startReply
    rw [reading]
    exact sound
  | some w =>
    have device : s.control.device = .starting := sound.starting (by rw [reading]; rfl)
    unfold State.startReply
    rw [reading]
    split
    · exact sound.setStart device _
    · unfold State.startSettings
      dsimp only
      split
      · refine State.PagesSound.startRead ?_ (by exact device) ..
        exact sound.same rfl rfl id
      · exact sound.setStart device _
    · unfold State.startRegions
      split
      · exact sound.setStart device _
      · refine State.PagesSound.startRead ?_ (by exact device) ..
        exact sound.same rfl rfl id
    · unfold State.startCodes
      split
      · refine State.PagesSound.setStart ?_ (by exact device) _
        exact sound.same rfl rfl id
      · refine State.PagesSound.startRead ?_ (by exact device) ..
        exact sound.same rfl rfl id
    · unfold State.startFilters
      split
      · exact sound.setStart device _
      · refine State.PagesSound.setStart ?_ (by exact device) _
        exact sound.same rfl rfl id
    · exact sound

end

end Sys2Proof.Machine

/-! PROOFS. The pages where the store is built anew, at START and at the resets, and over TEST_PAGES (6.4, 6.5; R116, R125, R128,
R129). -/

namespace Sys2Proof.Machine

section
variable {r s t : State} {moving : List Nat}

/-! ### The device at rest -/

/-- Where no work of a run, of START or of a test is under way, the device state does not matter. -/
theorem Stock.rest (h : Stock r s []) (quiet : s.StoreQuiet) (test : s.store.test = none) (start : s.control.start = none)
    (stopped : s.timer.running = false) (inFlight : s.allocator.inFlight = none) : s.PagesSound :=
  h.settled
    { test := fun x under => by rw [test] at under; cases under
      quiet := fun _ _ => quiet
      testing := fun under => by rw [test] at under; cases under
      starting := fun b => by rw [start] at b; cases b
      timed := fun b => by rw [stopped] at b; cases b
      allocating := fun b => by rw [inFlight] at b; cases b }

theorem State.PagesSound.no_test (sound : s.PagesSound) (notTesting : s.control.device ≠ .testing)
    (notHalting : s.control.device ≠ .halting) : s.store.test = none :=
  Option.not_isSome_iff_eq_none.1 fun under => (sound.testing under).elim notTesting notHalting

theorem State.PagesSound.no_start (sound : s.PagesSound) (notStarting : s.control.device ≠ .starting) : s.control.start = none :=
  Option.not_isSome_iff_eq_none.1 fun b => notStarting (sound.starting b)

theorem State.inactive_of {d : DeviceState} (device : s.control.device = d) (notRunning : d ≠ .running)
    (notDraining : d ≠ .draining) : ¬ s.Active := by
  rw [State.Active, device]
  exact not_or.2 ⟨notRunning, notDraining⟩

/-- With neither a test nor START under way an inactive device may pass to another state. -/
theorem State.PagesSound.rest (sound : s.PagesSound) (inactive : ¬ s.Active) (test : s.store.test = none)
    (stocks : t.stocks = s.stocks) (noTest : t.store.test = none) (start : t.control.start = none)
    (running : t.timer.running = s.timer.running) (inFlight : t.allocator.inFlight = s.allocator.inFlight) : t.PagesSound := by
  obtain ⟨quiet, stopped, none_left⟩ := sound.still inactive
  have pages : t.store.testPages = s.store.testPages := by rw [Store.testPages, Store.testPages, test, noTest]
  exact (sound.stock.rebase stocks pages).rest (quiet.same stocks) noTest start (running.trans stopped)
    (inFlight.trans none_left)

/-! ### A store built anew -/

theorem freeOf_count {retired : List Nat} (once : retired.Nodup) (inside : ∀ p ∈ retired, p < 2048) (p : Nat) :
    (freeOf retired).count p + retired.count p = if p < 2048 then 1 else 0 := by
  by_cases held : p ∈ retired
  · have notFree : p ∉ freeOf retired := fun mem => by simp [freeOf, held] at mem
    rw [List.count_eq_zero.2 notFree, List.count_eq_one_of_mem once held, if_pos (inside p held)]
  · have isFree : (!retired.contains p) = true := by simp [held]
    rw [List.count_eq_zero.2 held, freeOf, List.count_filter (p := fun q => !retired.contains q) isFree, count_range]
    rfl

/-- R128, R130: a store rebuilt around a retired set, with nothing under way. -/
theorem Stock.rebuilt {retired : List Nat} (rising : retired.Pairwise (· < ·)) (inside : ∀ p ∈ retired, p < 2048)
    (quiet : t.StoreQuiet) (queue : t.recoder.queue = []) {st : Store} (store : t.store = st.rebuilt retired) :
    Stock t t [] where
  modes := rfl
  allocating := id
  balance p := by
    have counts := freeOf_count (rising.imp Nat.ne_of_lt) inside p
    rw [State.holds, store, quiet.engine0, quiet.engine1, Side.pages, quiet.side, quiet.line.1, quiet.line.2.1,
      quiet.line.2.2]
    simpa only [Store.rebuilt, EnginePhase.pages, Store.testPages, Option.map_none, Option.getD_none, List.count_nil,
      Nat.add_zero] using counts
  rising := by rw [store]; exact rising
  queued j mem := by
    rw [queue] at mem
    cases mem
  engines e j w busy := by
    cases e with
    | re0 => rw [show (t.recoder.engine .re0).phase = .idle from quiet.engine0] at busy; cases busy <;> contradiction
    | re1 => rw [show (t.recoder.engine .re1).phase = .idle from quiet.engine1] at busy; cases busy <;> contradiction

/-- R116: there are no pages but the 2048 of the store. -/
theorem State.PagesSound.inside (sound : s.PagesSound) {p : Nat} (held : 0 < s.holds p) : p < 2048 := by
  have balance := s.onePlace_iff.1 sound.onePlace p
  by_contra outside
  rw [if_neg outside] at balance
  omega

theorem State.PagesSound.retired_inside (sound : s.PagesSound) : ∀ p ∈ s.store.retired, p < 2048 := fun p mem => by
  have counted := List.count_pos_iff.2 mem
  refine sound.inside ?_
  rw [State.holds]
  omega

/-- R179: after a reset all pages are free or retired, and nothing is under way. -/
theorem State.afterReset_pages {c : Control} {st : Store} {retired : List Nat} (rising : retired.Pairwise (· < ·))
    (inside : ∀ p ∈ retired, p < 2048) (start : c.start = none) : (s.afterReset c (st.rebuilt retired)).PagesSound := by
  have quiet : (s.afterReset c (st.rebuilt retired)).StoreQuiet := ⟨rfl, rfl, rfl, rfl, rfl, rfl⟩
  have stock : Stock (s.afterReset c (st.rebuilt retired)) (s.afterReset c (st.rebuilt retired)) [] :=
    Stock.rebuilt (st := st) rising inside quiet rfl rfl
  exact stock.rest quiet rfl start rfl rfl

/-- R128: the power-on values of the store are those of a store rebuilt without a retired page. -/
theorem Store.reset_eq_rebuilt : Store.reset = Store.reset.rebuilt [] := by
  have free : freeOf [] = List.range Config.pageCount := List.filter_eq_self.2 fun _ _ => rfl
  rw [Store.rebuilt, free]
  rfl

theorem State.afterPowerOn_pages (s : State) : (s.afterReset Control.reset Store.reset).PagesSound := by
  rw [Store.reset_eq_rebuilt]
  exact State.afterReset_pages List.Pairwise.nil (fun _ mem => by cases mem) rfl

/-- R129: RESET adds pages of the sending list and the page under test alone to the retired set. -/
theorem State.PagesSound.retiredAfterReset_inside (sound : s.PagesSound) : ∀ p ∈ s.retiredAfterReset, p < 2048 := by
  have joined : ∀ (pages : List Nat) {l : List Nat} {p : Nat}, p ∈ pages.foldl (fun r n => insertPage n r) l →
      p ∈ pages ∨ p ∈ l := fun pages => by
    induction pages with
    | nil => exact fun mem => .inr mem
    | cons n rest ih =>
      intro l p mem
      obtain mem | mem := ih mem
      · exact .inl (List.mem_cons_of_mem _ mem)
      · obtain rfl | mem := mem_insertPage.1 mem
        · exact .inl List.mem_cons_self
        · exact .inr mem
  intro p mem
  obtain mem | mem := joined _ mem
  · obtain mem | mem := List.mem_append.1 mem
    · have counted := List.count_pos_iff.2 (List.mem_of_mem_filter mem)
      refine sound.inside ?_
      rw [State.holds]
      omega
    · cases under : s.store.test with
      | none =>
        rw [under] at mem
        cases mem
      | some x =>
        rw [under] at mem
        cases phase : x.phase with
        | pages page origin =>
          have tested : page ≤ x.last := (sound.test x under).2.1 page (by simp [PageTest.page, phase])
          have last : x.last < 2048 := (sound.test x under).1
          cases origin with
          | free => simp [phase] at mem
          | retired =>
            simp only [Option.map_some, phase, List.mem_singleton] at mem
            omega
        | between => simp [phase] at mem
        | writing => simp [phase] at mem
        | ended _ => simp [phase] at mem
  · exact sound.retired_inside p mem

theorem State.PagesSound.afterReset (sound : s.PagesSound) :
    ((s.afterReset s.control.afterReset (s.store.rebuilt s.retiredAfterReset)).raise .commandDone).PagesSound := by
  have reset : (s.afterReset s.control.afterReset (s.store.rebuilt s.retiredAfterReset)).PagesSound :=
    State.afterReset_pages (foldl_insertPage_rising _ sound.rising) sound.retiredAfterReset_inside rfl
  exact reset.same rfl rfl id

/-! ### START's end -/

theorem State.PagesSound.startFinish (sound : s.PagesSound) {x : CmdResult} (ended : s.control.start = some (.ended x)) :
    (s.startFinish x).PagesSound := by
  have device : s.control.device = .starting := sound.starting (by rw [ended]; rfl)
  have inactive : ¬ s.Active := State.inactive_of device nofun nofun
  have test : s.store.test = none := sound.no_test (by rw [device]; nofun) (by rw [device]; nofun)
  unfold State.startFinish
  dsimp only
  split
  · refine State.PagesSound.run ?_ (RunFrame.refl _).beginIntake
    have quiet : ((((s.setControl { s.control with start := none, notice := false, drainEnding := false }).initRun).setDevice
        .running).complete (some .start) .ok).StoreQuiet := ⟨rfl, rfl, rfl, rfl, rfl, rfl⟩
    refine Stock.settled (Stock.rebuilt sound.rising sound.retired_inside (st := s.store) quiet rfl rfl) ?_
    exact
      { test := nofun
        quiet := fun _ _ => quiet
        testing := nofun
        starting := nofun
        timed := fun _ => .inl rfl
        allocating := nofun }
  · exact sound.rest inactive test rfl test rfl rfl rfl

theorem execStartComplete_pages (sound : s.PagesSound) (e : execStartComplete s = .next t) : t.PagesSound := by
  unfold execStartComplete at e
  split at e
  next ended => cases e; exact sound.startFinish ended
  next => cases e; exact sound

theorem State.PagesSound.startRun (sound : s.PagesSound) (device : s.control.device = .idle) : s.startRun.PagesSound := by
  have starting : (s.setDevice .starting).PagesSound :=
    sound.rest (State.inactive_of device nofun nofun) (sound.no_test (by rw [device]; nofun) (by rw [device]; nofun)) rfl
      (sound.no_test (by rw [device]; nofun) (by rw [device]; nofun)) (sound.no_start (by rw [device]; nofun)) rfl rfl
  unfold State.startRun
  dsimp only
  split
  · exact starting.startRead rfl ..
  · exact starting.setStart rfl _

/-! ### The reset state -/

/-- The power-on values are a reset of themselves. -/
theorem State.reset_pages : State.reset.PagesSound :=
  State.PagesSound.same (State.afterPowerOn_pages State.reset) rfl rfl id

/-- Settles O3: the reset state holds nothing but the free pages; the other invariants are those that every reset meets. -/
theorem resetMeetsTheInvariants : Obligations.ResetMeetsTheInvariants := by
  have keys : State.reset.KeysSound := Keys.reset_sound
  have debts : State.reset.DebtsBounded :=
    { owed := fun p => (PerProgram.look_fill 0 p).trans_le (Nat.zero_le _)
      reported := fun x mem => by cases mem
      carried := fun j mem => by cases mem }
  have windows : State.reset.WindowsBounded := State.windowsBounded_of_intake
    (fun p => by
      rw [State.ctx, show State.reset.controller.programs.look p = ProgramCtx.reset from PerProgram.look_fill _ p]
      exact Nat.zero_le _)
    fun i begun => by cases begun
  have queue : State.reset.FaultQueueSound := ⟨⟨fun _ => rfl, fun _ => rfl⟩, List.nodup_nil⟩
  exact ⟨rfl, ⟨rfl, rfl⟩, keys, debts, windows, Nat.zero_le _, queue, State.reset_pages⟩

end

end Sys2Proof.Machine

/-! PROOFS. The pages over TEST_PAGES (6.4; R116, R124 to R127). -/

namespace Sys2Proof.Machine

section
variable {s t : State} {x y : PageTest} {page : Nat}

/-- What `State.PagesSound` says of a test in progress. -/
def PageTest.InRange (x : PageTest) : Prop :=
  x.last < Config.pageCount ∧ (∀ p ∈ x.page, p ≤ x.last) ∧ (x.phase = .between → x.next ≤ x.last)

theorem PageTest.page_nil (h : ∀ p origin, x.phase ≠ .pages p origin) : x.page = [] := by
  unfold PageTest.page
  split
  next p origin phase => exact absurd phase (h p origin)
  next => rfl

theorem PageTest.inRange_of_no_page (last : x.last < 2048) (none_held : x.page = [])
    (next : x.phase = .between → x.next ≤ x.last) : x.InRange :=
  ⟨last, fun p mem => (by rw [none_held] at mem; cases mem), next⟩

/-- The device is TESTING, or in HALTING it ends a test. -/
def State.MayTest (s : State) : Prop := s.control.device = .testing ∨ s.control.device = .halting

theorem State.MayTest.inactive (tests : s.MayTest) : ¬ s.Active := by
  obtain device | device := tests <;> exact State.inactive_of device nofun nofun

/-- A test goes on with the same page under test, or with none. -/
theorem State.PagesSound.setTest (sound : s.PagesSound) (tests : s.MayTest) (same : s.store.testPages = x.page)
    (inRange : x.InRange) : (s.setTest (some x)).PagesSound := by
  refine Stock.settled (sound.stock.rebase (t := s.setTest (some x)) rfl same.symm) ?_
  exact
    { test := fun y under => by
        cases under
        exact inRange
      quiet := fun notRunning notDraining => (sound.quiet notRunning notDraining).same rfl
      testing := fun _ => tests
      starting := sound.starting
      timed := sound.timed
      allocating := sound.allocating }

theorem State.PagesSound.noTest (sound : s.PagesSound) (none_held : s.store.testPages = []) : (s.setTest none).PagesSound := by
  refine Stock.settled (sound.stock.rebase (t := s.setTest none) rfl none_held.symm) ?_
  exact
    { test := fun y under => by cases under
      quiet := fun notRunning notDraining => (sound.quiet notRunning notDraining).same rfl
      testing := fun under => by cases under
      starting := sound.starting
      timed := sound.timed
      allocating := sound.allocating }

theorem State.testPages_of_test (under : s.store.test = some x) : s.store.testPages = x.page := by
  rw [Store.testPages, under]
  rfl

/-- R126: with no page under test the record is written. -/
theorem State.PagesSound.testRecord (sound : s.PagesSound) (tests : s.MayTest) (none_held : s.store.testPages = [])
    (last : x.last < 2048) : (s.testRecord x).PagesSound := by
  unfold State.testRecord
  dsimp only
  split
  · exact (sound.setTest (x := { x with phase := .writing }) tests none_held
      (PageTest.inRange_of_no_page last rfl nofun)).issue _
  · exact sound.setTest (x := { x with phase := .ended .directoryAccess }) tests none_held
      (PageTest.inRange_of_no_page last rfl nofun)

theorem State.PagesSound.testRun (sound : s.PagesSound) (device : s.control.device = .idle) (first count : Nat) :
    (State.testRun first count s).PagesSound := by
  have none_held : s.store.test = none := sound.no_test (by rw [device]; nofun) (by rw [device]; nofun)
  have testing : (s.setDevice .testing).PagesSound :=
    sound.rest (State.inactive_of device nofun nofun) none_held rfl none_held (sound.no_start (by rw [device]; nofun)) rfl rfl
  have noPage : (s.setDevice .testing).store.testPages = [] := by
    rw [Store.testPages, show (s.setDevice .testing).store.test = none from none_held]
    rfl
  have last : (PageTest.start first count).last < 2048 := (Nat.min_le_right _ _).trans_lt (by decide)
  unfold State.testRun
  split
  · exact sound.same rfl rfl id
  · rename_i inside
    split
    · exact testing.testRecord (.inl rfl) noPage last
    · rename_i counted
      refine testing.setTest (.inl rfl) noPage (PageTest.inRange_of_no_page last rfl fun _ => ?_)
      change first ≤ Nat.min (first + count - 1) 2047
      exact Nat.le_min.2 ⟨by omega, by omega⟩

/-! ### One page's test -/

/-- Outside of a run every page is free or retired but the page under test. -/
theorem State.StoreQuiet.holds (quiet : s.StoreQuiet) (p : Nat) :
    s.holds p = s.store.free.count p + s.store.retired.count p + s.store.testPages.count p := by
  rw [State.holds, quiet.engine0, quiet.engine1, Side.pages, quiet.side, quiet.line.1, quiet.line.2.1, quiet.line.2.2]
  simp only [EnginePhase.pages, Option.map_none, Option.getD_none, List.count_nil, Nat.add_zero]

theorem count_filter_ne (l : List Nat) (n p : Nat) :
    (l.filter fun q => decide (q ≠ n)).count p = if p = n then 0 else l.count p := by
  split
  next same =>
    subst same
    exact List.count_eq_zero.2 fun mem => of_decide_eq_true (List.mem_filter.1 mem).2 rfl
  next other => exact List.count_filter (p := fun q => decide (q ≠ n)) (decide_eq_true other)

/-- R125: the current page leaves the free list or the retired set and is under test. -/
theorem State.PagesSound.takePage (sound : s.PagesSound) (under : s.store.test = some x) (between : x.phase = .between) :
    (s.takePage x x.next).PagesSound := by
  have tests : s.MayTest := sound.testing (by rw [under]; rfl)
  obtain ⟨last, -, next⟩ := sound.test x under
  have inside : x.next < 2048 := (next between).trans_lt last
  have quiet : s.StoreQuiet := (sound.still tests.inactive).1
  have none_held : s.store.testPages = [] := by
    rw [State.testPages_of_test under]
    exact PageTest.page_nil fun p origin phase => by rw [between] at phase; cases phase
  have after : (s.takePage x x.next).StoreQuiet := ⟨quiet.engine0, quiet.engine1, quiet.side, quiet.line⟩
  have stock : Stock (s.takePage x x.next) (s.takePage x x.next) [] :=
    { modes := rfl
      allocating := id
      balance := fun p => by
        have before := s.onePlace_iff.1 sound.onePlace p
        rw [quiet.holds, none_held] at before
        rw [after.holds, ← before]
        change (s.store.free.filter fun q => decide (q ≠ x.next)).count p +
          (s.store.retired.filter fun q => decide (q ≠ x.next)).count p + [x.next].count p + 0 = _
        rw [count_filter_ne, count_filter_ne]
        split
        next same =>
          subst same
          rw [List.count_singleton_self]
          rw [if_pos inside] at before
          exact before.symm
        next other =>
          rw [List.count_eq_zero.2 fun mem => other (List.mem_singleton.1 mem), List.count_nil]
      rising := sound.rising.filter _
      queued := sound.queued
      engines := sound.engines }
  refine stock.settled ?_
  exact
    { test := fun y taken => by
        cases taken
        refine ⟨last, fun p mem => ?_, nofun⟩
        obtain rfl : p = x.next := List.mem_singleton.1 mem
        exact next between
      quiet := fun _ _ => after
      testing := fun _ => tests
      starting := sound.starting
      timed := sound.timed
      allocating := sound.allocating }

/-- R125: the page under test joins the free list or the retired set. -/
theorem State.PagesSound.verdict (sound : s.PagesSound) (under : s.store.test = some x) (held : x.page = [page])
    (good : Bool) : ((s.setStore (s.store.verdict page good)).setTest none).PagesSound := by
  have tests : s.MayTest := sound.testing (by rw [under]; rfl)
  obtain ⟨quiet, stopped, inFlight⟩ := sound.still tests.inactive
  have start : s.control.start = none := sound.no_start (by obtain device | device := tests <;> rw [device] <;> nofun)
  have before : ∀ p, s.store.free.count p + s.store.retired.count p + [page].count p = if p < 2048 then 1 else 0 := fun p => by
    have balance := s.onePlace_iff.1 sound.onePlace p
    rwa [quiet.holds, State.testPages_of_test under, held] at balance
  have fresh : page ∉ s.store.retired := fun mem => by
    have counted := List.count_pos_iff.2 mem
    have balance := before page
    rw [List.count_singleton_self] at balance
    split at balance <;> omega
  have after : ((s.setStore (s.store.verdict page good)).setTest none).StoreQuiet :=
    ⟨quiet.engine0, quiet.engine1, quiet.side, quiet.line⟩
  have stock : Stock ((s.setStore (s.store.verdict page good)).setTest none)
      ((s.setStore (s.store.verdict page good)).setTest none) [] :=
    { modes := rfl
      allocating := id
      balance := fun p => by
        rw [after.holds, ← before p]
        cases good with
        | true =>
          change (s.store.free ++ [page]).count p + s.store.retired.count p + 0 + 0 = _
          rw [List.count_append]
          omega
        | false =>
          change s.store.free.count p + (insertPage page s.store.retired).count p + 0 + 0 = _
          rw [count_insertPage fresh]
          omega
      rising := by
        cases good with
        | true => exact sound.rising
        | false => exact insertPage_rising sound.rising
      queued := sound.queued
      engines := sound.engines }
  exact stock.rest after rfl start stopped inFlight

/-- R125 to R127: behind its verdict the next page is current, or the record is written. -/
theorem State.PagesSound.judgePage (sound : s.PagesSound) (under : s.store.test = some y) (held : y.page = [page])
    (last : x.last < 2048) (good : Bool) : (s.judgePage x page good).PagesSound := by
  have tests : s.MayTest := sound.testing (by rw [under]; rfl)
  have judged := sound.verdict under held good
  unfold State.judgePage
  dsimp only
  split
  · exact judged.testRecord (x := x.count page good) tests rfl last
  · rename_i goesOn
    refine judged.setTest (x := { x.count page good with phase := .between }) tests rfl
      (PageTest.inRange_of_no_page last rfl fun _ => ?_)
    rw [Bool.or_eq_true, not_or, decide_eq_true_eq, not_le] at goesOn
    exact goesOn.2

theorem execPageTested_pages (sound : s.PagesSound) {event : PageStep} (e : execPageTested event s = .next t) :
    t.PagesSound := by
  unfold execPageTested at e
  split at e
  next => cases e; exact sound
  next x under =>
    have last : x.last < 2048 := (sound.test x under).1
    split at e
    next between => cases e; exact sound.takePage under between
    next good between => cases e; exact (sound.takePage under between).judgePage rfl rfl last good
    next page origin good phase =>
      cases e
      exact sound.judgePage under (by rw [PageTest.page, phase]) last good
    next => cases e; exact sound

/-! ### The end of a test -/

theorem State.PagesSound.testReply (sound : s.PagesSound) (r : Reply) : (s.testReply r).PagesSound := by
  unfold State.testReply
  split
  next => exact sound
  next x under =>
    split
    next writing =>
      have noPage : x.page = [] := PageTest.page_nil fun p origin phase => by rw [writing] at phase; cases phase
      exact sound.setTest (sound.testing (by rw [under]; rfl)) ((State.testPages_of_test under).trans noPage)
        (PageTest.inRange_of_no_page (sound.test x under).1 rfl nofun)
    next => exact sound

theorem State.PagesSound.testFinish (sound : s.PagesSound) (under : s.store.test = some x) {result : CmdResult}
    (ended : x.phase = .ended result) : (s.testFinish x result).PagesSound := by
  have tests : s.MayTest := sound.testing (by rw [under]; rfl)
  have noPage : s.store.testPages = [] := by
    rw [State.testPages_of_test under]
    exact PageTest.page_nil fun p origin phase => by rw [ended] at phase; cases phase
  have finished := sound.noTest noPage
  have start : s.control.start = none := sound.no_start (by obtain device | device := tests <;> rw [device] <;> nofun)
  unfold State.testFinish
  dsimp only
  split
  · split
    · exact finished.same rfl rfl id
    · exact finished.same rfl rfl id
  · exact finished.rest tests.inactive rfl rfl rfl start rfl rfl

theorem execTestEnd_pages (sound : s.PagesSound) (e : execTestEnd s = .next t) : t.PagesSound := by
  unfold execTestEnd at e
  split at e
  next => cases e; exact sound
  next x under =>
    split at e
    next ended => cases e; exact sound.testFinish under ended
    next => cases e; exact sound

/-- R127: HALT finds a page under test, or none and has the record written. -/
theorem State.PagesSound.interruptTest (sound : s.PagesSound) : s.interruptTest.PagesSound := by
  unfold State.interruptTest
  split
  next => exact sound
  next x under =>
    have tests : s.MayTest := sound.testing (by rw [under]; rfl)
    have inRange := sound.test x under
    have held := State.testPages_of_test under
    split
    next between =>
      have noPage : s.store.testPages = [] := by
        rw [State.testPages_of_test under]
        exact PageTest.page_nil fun p origin phase => by rw [between] at phase; cases phase
      exact sound.testRecord tests noPage inRange.1
    next phase => exact sound.setTest (x := { x with interrupted := true }) tests held inRange
    next => exact sound

end

end Sys2Proof.Machine

/-! PROOFS. The pages over the boundary, the end of a drain, HALT and the ends of accesses (10.3, 10.4; R116, R150, R176, R177). -/

namespace Sys2Proof.Machine

section
variable {r s t : State} {moving : List Nat}

/-! ### The device goes on, or comes to rest -/

/-- Pages moved in a device state that stays: outside of a run they have all come to rest. -/
theorem Stock.sound (h : Stock r s []) (sound : r.PagesSound) (quiet : ¬ r.Active → s.StoreQuiet) : s.PagesSound := by
  by_cases active : r.Active
  · exact h.pagesSound sound active
  · obtain ⟨test, device, start, running⟩ := Stock.modes_iff.1 h.modes
    exact h.settled
      { test := test ▸ sound.test
        quiet := fun _ _ => quiet active
        testing := by rw [test, device]; exact sound.testing
        starting := by rw [start, device]; exact sound.starting
        timed := by rw [running, device]; exact sound.timed
        allocating := fun b => by rw [running]; exact sound.allocating (h.allocating b) }

/-- R119: the recoder's end, the reservation's end and the line's end leave no page with any of them. -/
theorem State.ended_quiet (s : State) : s.haltRecoder.endReservation.stopLine.StoreQuiet := by
  rw [State.endReservation_eq]
  exact ⟨rfl, rfl, rfl, rfl, rfl, rfl⟩

theorem State.halted_quiet (s : State) : s.haltRecoder.haltSide.stopLine.StoreQuiet := by
  rw [State.haltSide_eq]
  exact ⟨rfl, rfl, rfl, rfl, rfl, rfl⟩

theorem Stock.haltSide (h : Stock r s moving) : Stock r s.haltSide moving := h.endReservation.same rfl rfl id

/-- R176: the device comes to IDLE. -/
theorem State.PagesSound.enterIdle (sound : s.PagesSound) : s.enterIdle.PagesSound := by
  unfold State.enterIdle
  split
  next draining =>
    have dropped : Stock s (s.dropAccesses fun a => a == .intake) [] := sound.stock.same rfl rfl id
    have stopped := dropped.haltRecoder.endReservation.stopLine
    have quiet := State.ended_quiet (s.dropAccesses fun a => a == .intake)
    dsimp only
    generalize (s.dropAccesses fun a => a == .intake).haltRecoder.endReservation.stopLine = u at stopped quiet ⊢
    obtain ⟨test, -, start, -⟩ := Stock.modes_iff.1 stopped.modes
    have noTest : u.store.test = none := test.trans (sound.no_test (by rw [draining]; nofun) (by rw [draining]; nofun))
    have noStart : u.control.start = none := start.trans (sound.no_start (by rw [draining]; nofun))
    refine Stock.rest (stopped.rebase rfl rfl) (quiet.same rfl) noTest noStart ?_ ?_ <;> rfl
  next => exact sound

/-! ### Reports -/

theorem State.PagesSound.startReport (sound : s.PagesSound) : s.startReport.PagesSound := by
  unfold State.startReport
  split
  · refine State.PagesSound.issue ?_ _
    exact sound.same rfl rfl id
  · exact sound

theorem State.PagesSound.endReport (sound : s.PagesSound) (f : Figures) : (s.endReport f).PagesSound := by
  have ended : (s.setReporter { s.reporter with work := none }).PagesSound := sound.same rfl rfl id
  unfold State.endReport
  dsimp only
  split
  · exact ended.enterIdle
  · exact ended.startReport

theorem State.PagesSound.stopReporting (sound : s.PagesSound) (f : Figures) : (s.stopReporting f).PagesSound := by
  have stopped : ((s.setReporter { s.reporter with isOn := false, work := none, waiting := [] }).raise
      .reportSkipped).PagesSound := sound.same rfl rfl id
  unfold State.stopReporting
  dsimp only
  split
  · exact stopped.enterIdle
  · exact stopped

theorem State.PagesSound.reportIndexRead (sound : s.PagesSound) (f : Figures) (c : Nat) :
    (s.reportIndexRead f c).PagesSound := by
  have skipped : ((s.setReporter { s.reporter with skipped := Nat.min (s.reporter.skipped + 1) 65535 }).raise
      .reportSkipped).PagesSound := sound.same rfl rfl id
  have writing : (s.setReporter { s.reporter with work := some { figures := f, phase := .record } }).PagesSound :=
    sound.same rfl rfl id
  unfold State.reportIndexRead
  split
  · exact skipped.endReport f
  · split
    next issued => exact writing.of_issue issued
    next issued => exact (writing.of_issue issued).stopReporting f

theorem State.PagesSound.reportReply (sound : s.PagesSound) (x : Reply) : (s.reportReply x).PagesSound := by
  unfold State.reportReply
  split
  · exact sound
  · split
    · exact sound.stopReporting _
    · exact sound.reportIndexRead _ _
    · unfold State.reportRecordWritten
      refine State.PagesSound.issue ?_ _
      exact sound.same rfl rfl id
    · unfold State.reportIndexWritten
      refine State.PagesSound.endReport ?_ _
      exact sound.same rfl rfl id

/-! ### The boundary -/

theorem Stock.completeAtBoundary (h : Stock r s moving) : Stock r s.completeAtBoundary moving := by
  unfold State.completeAtBoundary
  split
  · exact h
  · exact (h.applyAllocation _).startRoundStatus

theorem Stock.startRoundWork (h : Stock r s []) : Stock r s.startRoundWork [] :=
  ((h.engineTakes .re0).engineTakes .re1).nextSideBuild

theorem State.PagesSound.reportBoundary (sound : s.PagesSound) (f : Figures) : (s.reportBoundary f).PagesSound := by
  unfold State.reportBoundary
  split
  · exact State.PagesSound.startReport (sound.same rfl rfl id)
  · split
    · exact sound.enterIdle
    · exact sound

theorem State.PagesSound.intakeAtBoundary (sound : s.PagesSound) : s.intakeAtBoundary.PagesSound := by
  unfold State.intakeAtBoundary
  split
  · exact sound
  · exact sound.run (RunFrame.refl s).beginIntake

theorem execBoundary_pages (sound : s.PagesSound) {event : BoundaryEvent} (e : execBoundary event s = .next t) :
    t.PagesSound := by
  unfold execBoundary at e
  split at e
  next running =>
    cases e
    have active := sound.active_of_running running
    have before : Stock s (if event.allocationFirst then s.completeAtBoundary else s) [] := by
      split
      · exact sound.stock.completeAtBoundary
      · exact sound.stock
    generalize (if event.allocationFirst then s.completeAtBoundary else s) = u at before ⊢
    have closed := (before.intervalClosed event.lineFirst).pagesSound sound active
    rw [State.boundary_eq]
    have opened : ((u.intervalClosed event.lineFirst).setTimer { (u.intervalClosed event.lineFirst).timer with
        number := (u.intervalClosed event.lineFirst).timer.number + 1 }).PagesSound := closed.same rfl rfl id
    exact (opened.reportBoundary _).intakeAtBoundary
  next => cases e; exact sound

/-! ### HALT -/

/-- R177: what HALT leaves once every block has ended its work, the test aside. -/
theorem State.PagesSound.haltWork (sound : s.PagesSound) {u : State} (stocks : u.stocks = s.stocks)
    (test : u.store.test = s.store.test) (device : u.control.device = .halting) (start : u.control.start = none)
    (stopped : u.timer.running = false) (inFlight : u.allocator.inFlight = none) :
    u.haltRecoder.haltSide.stopLine.PagesSound := by
  have pages : u.store.testPages = s.store.testPages := by rw [Store.testPages, test]; rfl
  have ended := (sound.stock.rebase stocks pages).haltRecoder.haltSide.stopLine
  have quiet := u.halted_quiet
  generalize u.haltRecoder.haltSide.stopLine = v at ended quiet ⊢
  obtain ⟨sameTest, sameDevice, sameStart, sameRunning⟩ := Stock.modes_iff.1 ended.modes
  refine Stock.settled (ended.rebase rfl rfl) ?_
  exact
    { test := by rw [sameTest, test]; exact sound.test
      quiet := fun _ _ => quiet
      testing := fun _ => .inr (sameDevice.trans device)
      starting := fun b => by rw [sameStart, start] at b; cases b
      timed := fun b => by rw [sameRunning, stopped] at b; cases b
      allocating := fun b => by
        have left := ended.allocating b
        rw [inFlight] at left
        cases left }

theorem State.PagesSound.haltDevice (sound : s.PagesSound) : s.haltDevice.PagesSound := by
  have ended := sound.haltWork (u := ((((s.dropAccesses Agent.endsAtHalt).setControl
    { s.control with
      device := .halting, inFlight := some .halt, ignored := false, start := none, filterLoad := none, regionReload := none
      probe := none, notice := false, drainEnding := false, endedTest := none }).setTimer
        { s.timer with running := false }).setAllocator s.allocator.halted)) rfl rfl rfl rfl rfl rfl
  refine State.PagesSound.run ?_ ((RunFrame.refl _).haltController _)
  exact ended.interruptTest.same rfl rfl id

/-- R58, R139, R144: the queues emptied by a HALT in IDLE held no page. -/
theorem State.PagesSound.haltQueues (sound : s.PagesSound) : s.haltQueues.PagesSound := by
  have halted : Stock s (s.setAllocator s.allocator.halted) [] := sound.stock.same rfl rfl nofun
  refine Stock.sound halted.haltSide sound fun inactive => ?_
  have quiet := (sound.still inactive).1
  rw [State.haltQueues_eq]
  exact ⟨quiet.engine0, quiet.engine1, rfl, quiet.line⟩

theorem State.PagesSound.haltFinish (sound : s.PagesSound) (reached : s.haltReached = true) : s.haltFinish.PagesSound := by
  simp only [State.haltReached, Bool.and_eq_true, decide_eq_true_eq, Option.isNone_iff_eq_none] at reached
  obtain ⟨⟨⟨⟨device, -⟩, -⟩, -⟩, test⟩ := reached
  have start : s.control.start = none := sound.no_start (by rw [device]; nofun)
  have inactive : ¬ s.Active := State.inactive_of device nofun nofun
  unfold State.haltFinish
  dsimp only
  split <;> exact sound.rest inactive test rfl test start rfl rfl

theorem execHalt_pages (sound : s.PagesSound) (e : execHalt s = .next t) : t.PagesSound := by
  have dropped : ((s.dropAccesses Agent.endsAtHalt).setControl
      { s.control with filterLoad := none, regionReload := none, probe := none }).PagesSound := sound.same rfl rfl id
  unfold execHalt at e
  split at e
  · cases e; exact sound.same rfl rfl id
  · split at e
    · cases e
      exact State.PagesSound.same dropped.haltQueues rfl rfl id
    · cases e
      exact State.PagesSound.same sound.haltQueues rfl rfl id
  · cases e
    exact sound.haltDevice

/-! ### The ends of accesses -/

theorem State.PagesSound.engineReply (sound : s.PagesSound) (e : Engine) (x : Reply) : (s.engineReply e x).PagesSound := by
  by_cases idle : (s.recoder.engine e).phase = .idle
  · have stays : s.engineReply e x = s := by
      unfold State.engineReply State.engineStep
      rw [idle]
      rfl
    rw [stays]
    exact sound
  · exact sound.moved (sound.active_of_phase idle) fun h => (h.engineStep e x).engineGoes e

theorem State.PagesSound.sideReply (sound : s.PagesSound) (x : Reply) : (s.sideReply x).PagesSound := by
  unfold State.sideReply
  split
  next => exact sound
  next b data building =>
    refine sound.moved (sound.active_of_build building) fun h => Stock.setSide h ?_
    rw [Side.pages, building]
    exact List.Perm.refl _
  next building => exact sound.moved (sound.active_of_build building) fun h => h.sideFault.nextSideBuild

theorem State.PagesSound.probeReply (sound : s.PagesSound) (x : Reply) : (s.probeReply x).PagesSound := by
  unfold State.probeReply
  split
  · unfold State.probeAnswer
    split
    refine State.PagesSound.issue ?_ _
    exact sound.same rfl rfl id
  · exact sound.same rfl rfl id
  · exact sound.same rfl rfl id
  · exact sound.same rfl rfl id
  · exact sound

theorem State.PagesSound.faultReply (sound : s.PagesSound) (x : Reply) : (s.faultReply x).PagesSound := by
  unfold State.faultReply
  split
  · exact sound.same rfl rfl id
  · exact sound.same rfl rfl id
  · exact sound

theorem State.PagesSound.deliver (sound : s.PagesSound) (agent : Agent) (x : Reply) : (s.deliver agent x).PagesSound := by
  have run := RunFrame.refl s
  cases agent with
  | start => exact sound.startReply x
  | filterLoad => exact sound.same rfl rfl id
  | regionReload => exact sound.same rfl rfl id
  | probe => exact sound.probeReply x
  | pageTest => exact sound.testReply x
  | intake => exact sound.run (run.intakeReply x)
  | halt => exact sound.run (run.haltReply x)
  | status => exact sound.run (run.statusReply x)
  | finish p => exact sound.run (run.finishReply p x)
  | engine e => exact sound.engineReply e x
  | side => exact sound.sideReply x
  | report => exact sound.reportReply x
  | faultRecord => exact sound.faultReply x

theorem State.PagesSound.endAccess (sound : s.PagesSound) (tag : Nat) (reply : Access → Reply) :
    (s.endAccess tag reply).PagesSound := by
  unfold State.endAccess
  split
  · exact sound
  · exact State.PagesSound.deliver (s := s.removeAccess tag) (sound.same rfl rfl id) _ _

end

end Sys2Proof.Machine

/-! PROOFS. Every command keeps every page in exactly one place (O11, R116). -/

namespace Sys2Proof.Machine

section
variable {s t : State}

/-- Where an outcome is a next state, the pages are sound there. -/
def NextPages (o : Host.Outcome State Fault Refusal) : Prop := ∀ t, o = .next t → t.PagesSound

theorem State.PagesSound.next (sound : s.PagesSound) : NextPages (.next s) := by
  rintro _ ⟨⟩
  exact sound

/-- A change of the control unit's registers alone. -/
theorem State.PagesSound.setControl (sound : s.PagesSound) {c : Control} (device : c.device = s.control.device)
    (start : c.start = s.control.start) : (s.setControl c).PagesSound :=
  sound.same rfl (Stock.modes_iff.2 ⟨rfl, device, start, rfl⟩) id

theorem State.PagesSound.complete (sound : s.PagesSound) (last : Option CommandName) (result : CmdResult) :
    (s.complete last result).PagesSound := sound.same rfl rfl id

/-! ### CONTROL's commands -/

/-- R172: a command runs only in a device state it is accepted in. -/
theorem State.PagesSound.command (sound : s.PagesSound) (c : CommandName) {run : State → State}
    (runs : ∀ u : State, u.PagesSound → acceptedIn c u.control.device = true → (run u).PagesSound) :
    (s.command c run).PagesSound := by
  unfold State.command
  split
  · exact sound.same rfl rfl id
  · split
    next accepted => exact runs _ (sound.same rfl rfl id) accepted
    next =>
      refine State.PagesSound.complete ?_ _ _
      exact sound.same rfl rfl id

theorem State.PagesSound.stopRun (sound : s.PagesSound) (device : s.control.device = .running) : s.stopRun.PagesSound := by
  have draining : (s.setControl { s.control with device := .draining, notice := false }).PagesSound := by
    have noTest : s.store.test = none := sound.no_test (by rw [device]; nofun) (by rw [device]; nofun)
    have noStart : s.control.start = none := sound.no_start (by rw [device]; nofun)
    refine Stock.settled (sound.stock.rebase rfl rfl) ?_
    exact
      { test := sound.test
        quiet := fun _ notDraining => absurd rfl notDraining
        testing := fun under => by
          rw [show (s.setControl { s.control with device := .draining, notice := false }).store.test = none from noTest] at under
          cases under
        starting := fun b => by
          rw [show (s.setControl { s.control with device := .draining, notice := false }).control.start = none
            from noStart] at b
          cases b
        timed := fun _ => .inr rfl
        allocating := sound.allocating }
  exact (draining.run (RunFrame.refl _).noticeIfAllOff).complete _ _

theorem State.PagesSound.loadFiltersRun (sound : s.PagesSound) : s.loadFiltersRun.PagesSound := by
  have addressed : s.filterAddress.2.PagesSound := by
    unfold State.filterAddress
    split
    · exact sound
    · exact sound.same rfl rfl id
  have loading : (s.filterAddress.2.setControl { s.filterAddress.2.control with filterLoad := some .reading }).PagesSound :=
    addressed.setControl rfl rfl
  unfold State.loadFiltersRun
  dsimp only
  split
  next issued => exact loading.of_issue issued
  next issued => exact (loading.of_issue issued).setControl rfl rfl

theorem State.PagesSound.probeRun (sound : s.PagesSound) : s.probeRun.PagesSound := by
  unfold State.probeRun
  split
  · exact sound.complete _ _
  · split
    · exact sound.complete _ _
    · exact State.PagesSound.issue (sound.setControl (by rfl) (by rfl)) _

theorem State.PagesSound.loadFinish (sound : s.PagesSound) (x : TableRead) : (s.loadFinish x).PagesSound := by
  unfold State.loadFinish
  dsimp only
  split
  · split <;> exact sound.same rfl rfl id
  · exact sound.same rfl rfl id

theorem State.PagesSound.reloadFinish (sound : s.PagesSound) (x : TableRead) : (s.reloadFinish x).PagesSound := by
  unfold State.reloadFinish
  dsimp only
  split
  · split <;> exact sound.same rfl rfl id
  · exact sound.same rfl rfl id

theorem execLoadEnd_pages (sound : s.PagesSound) : NextPages (execLoadEnd s) := by
  unfold execLoadEnd
  split
  · exact (sound.loadFinish _).next
  · exact (sound.loadFinish _).next
  · exact sound.next

theorem execReloadEnd_pages (sound : s.PagesSound) : NextPages (execReloadEnd s) := by
  unfold execReloadEnd
  split
  · exact (sound.reloadFinish _).next
  · exact (sound.reloadFinish _).next
  · exact sound.next

theorem execHaltComplete_pages (sound : s.PagesSound) : NextPages (execHaltComplete s) := by
  unfold execHaltComplete
  split
  next reached => exact (sound.haltFinish reached).next
  next => exact sound.next

theorem execProbeEnd_pages (sound : s.PagesSound) : NextPages (execProbeEnd s) := by
  unfold execProbeEnd
  split
  · exact (State.PagesSound.complete (sound.setControl (by rfl) (by rfl)) _ _).next
  · exact sound.next

theorem execBadCommand_pages (sound : s.PagesSound) (code : Byte) : NextPages (execBadCommand code s) := by
  unfold execBadCommand
  split
  · exact State.PagesSound.next (sound.same rfl rfl id)
  · exact State.PagesSound.next (sound.same rfl rfl id)

/-! ### The key window and the registers -/

theorem State.PagesSound.setKeys (sound : s.PagesSound) (k : Keys) : (s.setKeys k).PagesSound := sound.same rfl rfl id

theorem execInstallEnd_pages (sound : s.PagesSound) : NextPages (execInstallEnd s) := by
  unfold execInstallEnd
  split
  · exact sound.next
  · exact State.PagesSound.next (sound.same rfl rfl id)

/-- R101, for any word read: on the holding's own word a `rfl` has the kernel compute, as at `exec_keyCheck`. -/
theorem State.PagesSound.keyCheckRead (sound : s.PagesSound) (word : Word) :
    { s with control := { s.control with readData := word }, keys := s.keys.startCapture }.PagesSound :=
  sound.same rfl rfl id

theorem exec_keyCheck_pages (sound : s.PagesSound) : NextPages (exec .keyCheck s) := by
  intro t e
  rw [exec_keyCheck] at e
  cases e
  exact sound.keyCheckRead _

theorem execCaptureEnd_pages (sound : s.PagesSound) : NextPages (execCaptureEnd s) := by
  unfold execCaptureEnd
  split
  · exact sound.next
  · exact (sound.setKeys _).next

theorem execRegisterWrite_pages (sound : s.PagesSound) (register : PlainRegister) (value : Word) :
    NextPages (execRegisterWrite register value s) := by
  cases register with
  | status => exact sound.next
  | directoryLow => exact State.PagesSound.next (sound.same rfl rfl id)
  | directoryHigh => exact State.PagesSound.next (sound.same rfl rfl id)
  | keyCheck => exact sound.next

/-! ### The round -/

theorem execIntakeComplete_pages (sound : s.PagesSound) : NextPages (execIntakeComplete s) := by
  have merged : s.mergeIntakeNotes.PagesSound := sound.same rfl rfl id
  unfold execIntakeComplete
  split
  · exact sound.next
  · split
    next done =>
      have running : s.timer.running = true := by
        simp only [State.intakeDone, Bool.and_eq_true] at done
        exact done.1.1.1
      dsimp only
      split
      · refine State.PagesSound.next (Stock.settled (merged.stock.rebase rfl rfl) ?_)
        exact
          { test := merged.test
            quiet := fun notRunning notDraining => (merged.quiet notRunning notDraining).same rfl
            testing := merged.testing
            starting := merged.starting
            timed := merged.timed
            allocating := fun _ => running }
      · exact merged.intakeAtBoundary.next
    next => exact sound.next

theorem execAllocationComplete_pages (sound : s.PagesSound) : NextPages (execAllocationComplete s) := by
  unfold execAllocationComplete
  split
  next => exact sound.next
  next a inFlight =>
    exact (sound.moved (sound.active_of_inFlight inFlight) fun h => (h.applyAllocation a).startRoundStatus.startRoundWork).next

theorem execCompletionReport_pages (sound : s.PagesSound) (p : Program) : NextPages (execCompletionReport p s) := by
  unfold execCompletionReport
  split
  · exact sound.next
  · dsimp only
    split
    · exact State.PagesSound.next (sound.same rfl rfl id)
    · exact State.PagesSound.next (sound.same rfl rfl id)

/-! ### The engines -/

theorem execPassEnd_pages (sound : s.PagesSound) (e : Engine) : NextPages (execPassEnd e s) := by
  unfold execPassEnd
  split
  next j w phase =>
    have empty : j.pages = [] := sound.engines e j w (.inr phase)
    have held : (s.recoder.engine e).phase.pages = [] := EnginePhase.busy_empty (.inr phase) empty
    have active : s.Active := sound.active_of_phase (by rw [phase]; nofun)
    split
    · exact sound.next
    · split
      · exact (sound.moved active fun h => h.startBuild held empty).next
      · split
        · exact (sound.moved active fun h => (h.startPass held empty _ _ _ _ _).engineGoes e).next
        · split
          · exact (sound.moved active fun h => h.endsHeld (held.trans empty.symm) _).next
          · exact (sound.moved active fun h => (h.startPass held empty _ _ _ _ _).engineGoes e).next
  next => exact sound.next

theorem execFloorPassEnd_pages (sound : s.PagesSound) (e : Engine) : NextPages (execFloorPassEnd e s) := by
  unfold execFloorPassEnd
  split
  next j w phase =>
    have empty : j.pages = [] := sound.engines e j w (.inr phase)
    have held : (s.recoder.engine e).phase.pages = [] := EnginePhase.busy_empty (.inr phase) empty
    have active : s.Active := sound.active_of_phase (by rw [phase]; nofun)
    have refused : ∀ o, (s.endsHeld e j o).PagesSound := fun o =>
      sound.moved active fun h => h.endsHeld (held.trans empty.symm) o
    split
    · split
      · exact (refused _).next
      · exact (refused _).next
      · split
        · exact (refused _).next
        next draw debt _ =>
          refine (sound.moved active fun h => ?_).next
          have drawn : Stock s (s.setRecoder { s.recoder with spare := s.recoder.spare - draw }) [] := h.same rfl rfl id
          exact drawn.startBuild (by cases e <;> exact held) (j := { j with draw := draw, debt := debt }) empty
    · exact sound.next
  next => exact sound.next

theorem execJobCompletion_pages (sound : s.PagesSound) (e : Engine) : NextPages (execJobCompletion e s) := by
  unfold execJobCompletion
  split
  next j b phase =>
    have active : s.Active := sound.active_of_phase (by rw [phase]; nofun)
    exact (sound.moved active fun h => (h.completeJob phase).engineTakes e).next
  next => exact sound.next

theorem State.PagesSound.takeReportOf (sound : s.PagesSound) (p : Program) (q : Report → Bool) :
    (s.takeReportOf p q).PagesSound := by
  obtain ⟨rest, frame⟩ := s.takeReportOf_frame p q
  have taken : (s.setController { s.controller with reports := rest }).PagesSound := sound.same rfl rfl id
  exact taken.run frame

/-! ### The line, the side path and the fault record -/

theorem execSideLink_pages (sound : s.PagesSound) : NextPages (execSideLink s) := by
  unfold execSideLink
  split
  next b building =>
    split
    next data _ =>
      exact (sound.moved (sound.active_of_build building) fun h => (h.linkSideBuild building data).nextSideBuild).next
    next => exact sound.next
  next => exact sound.next

/-- R121, R122: sending an entry moves no page; an error marks one. -/
theorem State.PagesSound.sendEntry (sound : s.PagesSound) (check : ReadCheck) (entry : Entry) :
    NextPages (s.sendEntry check entry) := by
  cases entry with
  | produced p count sequence => exact State.PagesSound.next (sound.same rfl rfl id)
  | stored page place =>
    unfold State.sendEntry
    dsimp only
    split
    · rintro t ⟨⟩
    · cases check with
      | clean => exact State.PagesSound.next (sound.same rfl rfl id)
      | corrected => exact State.PagesSound.next (sound.same rfl rfl id)
      | uncorrectable => exact State.PagesSound.next (sound.same rfl rfl id)

theorem execCellRequest_pages (sound : s.PagesSound) (check : ReadCheck) : NextPages (execCellRequest check s) := by
  unfold execCellRequest
  dsimp only
  split
  · split
    · split
      · exact State.PagesSound.next (sound.same rfl rfl id)
      · split
        · exact State.PagesSound.next (sound.same rfl rfl id)
        · refine State.PagesSound.sendEntry ?_ _ _
          exact sound.same rfl rfl id
    · exact State.PagesSound.next (sound.same rfl rfl id)
  · exact State.PagesSound.next (sound.same rfl rfl id)

theorem State.PagesSound.startFaultWrite (sound : s.PagesSound) : s.startFaultWrite.PagesSound := by
  obtain ⟨l, w, begun, -⟩ := s.startFaultWrite_cases
  rw [begun]
  exact sound.same rfl rfl id

theorem execFaultRecordWriteEnd_pages (sound : s.PagesSound) : NextPages (execFaultRecordWriteEnd s) := by
  unfold execFaultRecordWriteEnd
  split
  next written req rest _ _ =>
    refine State.PagesSound.next (State.PagesSound.startFaultWrite ?_)
    cases written with
    | true => exact sound.same rfl rfl id
    | false => exact sound.same rfl rfl id
  next => exact sound.next

/-! ### Every command -/

theorem exec_pages (c : Instr) (sound : s.PagesSound) : NextPages (exec c s) := by
  cases c with
  | start => exact (sound.command .start fun u hu accepted => hu.startRun (of_decide_eq_true accepted)).next
  | startComplete => exact fun t e => execStartComplete_pages sound e
  | stop => exact (sound.command .stop fun u hu accepted => hu.stopRun (of_decide_eq_true accepted)).next
  | halt => exact fun t e => execHalt_pages sound e
  | haltComplete => exact execHaltComplete_pages sound
  | loadFilters => exact (sound.command .loadFilters fun u hu _ => hu.loadFiltersRun).next
  | loadEnd => exact execLoadEnd_pages sound
  | reloadRegions =>
    exact (sound.command .reloadRegions fun u hu _ => State.PagesSound.issue (hu.setControl (by rfl) (by rfl)) _).next
  | reloadEnd => exact execReloadEnd_pages sound
  | testPages first count =>
    exact (sound.command .testPages fun u hu accepted => hu.testRun (of_decide_eq_true accepted) _ _).next
  | pageTested event => exact fun t e => execPageTested_pages sound e
  | testEnd => exact fun t e => execTestEnd_pages sound e
  | probe => exact (sound.command .probe fun u hu _ => hu.probeRun).next
  | probeEnd => exact execProbeEnd_pages sound
  | reset => exact sound.afterReset.next
  | badCommand code => exact execBadCommand_pages sound code
  | powerOnReset => exact s.afterPowerOn_pages.next
  | busFunctionReset => exact s.afterPowerOn_pages.next
  | keySelectNone p q => exact (sound.setKeys _).next
  | load p q => exact (sound.setKeys _).next
  | erase p q => exact (sound.setKeys _).next
  | badOperation p q code => exact (sound.setKeys _).next
  | keyData half => exact (sound.setKeys _).next
  | installEnd => exact execInstallEnd_pages sound
  | keyCheck => exact exec_keyCheck_pages sound
  | captureEnd => exact execCaptureEnd_pages sound
  | events value => exact State.PagesSound.next (sound.setControl (by rfl) (by rfl))
  | eventEnable value => exact State.PagesSound.next (sound.setControl (by rfl) (by rfl))
  | registerWrite register value => exact execRegisterWrite_pages sound register value
  | boundary event => exact fun t e => execBoundary_pages sound e
  | intakeComplete => exact execIntakeComplete_pages sound
  | allocationComplete => exact execAllocationComplete_pages sound
  | passEnd e => exact execPassEnd_pages sound e
  | floorPassEnd e => exact execFloorPassEnd_pages sound e
  | jobCompletion e => exact execJobCompletion_pages sound e
  | finishReport p => exact (sound.takeReportOf p _).next
  | faultReport p => exact (sound.takeReportOf p _).next
  | completionReport p => exact execCompletionReport_pages sound p
  | sideLink => exact execSideLink_pages sound
  | cellRequest check => exact execCellRequest_pages sound check
  | faultRecordWriteEnd => exact execFaultRecordWriteEnd_pages sound
  | accessCompletion tag data => exact (sound.endAccess tag _).next
  | busError tag => exact (sound.endAccess tag _).next
  | completionTimeout tag => exact (sound.endAccess tag _).next

/-- Settles O11: the step's command keeps the pages sound, by the moves that `Stock` follows page by page. -/
theorem stepKeepsThePagesSound : Obligations.StepKeepsThePagesSound := by
  intro s t sound step
  obtain rfl | ⟨c, rest, -, run⟩ := step_next step
  · exact sound
  · have waiting : (s.setPending rest).PagesSound := sound.same rfl rfl id
    exact exec_pages c waiting t run

end

end Sys2Proof.Machine
